-- ==== Sys2Proof/Word.lean ====
section
/-! DEFINITION. The words of the KZ-2410: bytes of the record link and the store, addresses, sequence numbers, and the
4-byte data words of the memory bus. -/

namespace Sys2Proof

/-- One byte of the record link, of a record or of a reply. -/
abbrev Byte := BitVec 8

/-- A 32-bit byte address (00, Conventions: Numbers). -/
abbrev Addr := BitVec 32

/-- A journal frame sequence number, 0 to 255 (R61). -/
abbrev Seq := BitVec 8

/-- One 4-byte word of bus data, as its four bytes in address order, the byte at the word's address first (R114).
Kept as bytes, so that no byte order of the bus is chosen (log 18). -/
structure DataWord where
  b0 : Byte
  b1 : Byte
  b2 : Byte
  b3 : Byte
deriving DecidableEq, Repr

/-- The word whose four bytes are 0: used only for a beat that an ill-formed list does not carry (log 17). -/
def DataWord.zero : DataWord := ⟨0, 0, 0, 0⟩

end Sys2Proof
end

