-- ==== Sys2Proof/Syntax.lean ====
section
/-! DEFINITION. The commands of the block: one constructor of `Instr` for each row of spec/opcode_table.json, with the
operands that the event brings from outside. -/

namespace Sys2Proof

/-- Kind of a memory request (Table 2-2). -/
inductive ReqKind where
  | read
  | write
deriving DecidableEq, Repr

/-- A memory request (Table 2-2). The beat count, 1 to 16, is held less 1. A WRITE carries one set of 4 byte enables and
one data word for each beat, in beat order; bit i of a set enables the byte at the word's address plus i (R114). -/
structure Request where
  kind       : ReqKind
  address    : Addr
  beatsLess1 : BitVec 4
  source     : BitVec 4
  enables    : List (BitVec 4)
  data       : List DataWord
deriving DecidableEq, Repr

/-- Status of a response (R20). -/
inductive Status where
  | okay
  | error
deriving DecidableEq, Repr

/-- A response: a status, and for a READ one word of read data for each beat (R20). -/
structure Response where
  status : Status
  data   : List DataWord
deriving DecidableEq, Repr

/-- The levels of the plain input pins (Table 0-1). MARK and FRZ are active high (section 5.2). -/
structure Pins where
  mark0 : Bool
  mark1 : Bool
  mark2 : Bool
  mark3 : Bool
  frz   : Bool
deriving DecidableEq, Repr

/-- One of the marker inputs MARK0 to MARK3. -/
inductive MarkPin where
  | m0
  | m1
  | m2
  | m3
deriving DecidableEq, Repr

/-- Whose append claims can wait for the journal controller: the path controller for its requests, in the order in which it
took them (R33, R56), and for its FAILED records, which may come before or after those (R39); the marker unit for one of its
inputs (R94); the freeze unit (R97). -/
inductive Claimant where
  | path
  | failed
  | marker (pin : MarkPin)
  | freezeUnit
deriving DecidableEq, Repr

/-- The commands. A command of the recorder carries its tag and its argument bytes as the COMMAND body gives them
(Table 6-15), so that a wrong number of them can be answered BAD-LENGTH (R153). -/
inductive Instr where
  /-- COLD_RESET (R40): RESET_N held low and rising; the pin levels when it rises. -/
  | coldReset (pins : Pins)
  /-- TICK (R84): one tick; the pin levels at that tick. -/
  | tick (pins : Pins)
  /-- STALL_TIMER_EXPIRY (R36). -/
  | stallTimerExpiry
  /-- IDLE_CLOSE_TIMER_EXPIRY (R73). -/
  | idleCloseTimerExpiry
  /-- SILENCE_TIMER_EXPIRY (R123). -/
  | silenceTimerExpiry
  /-- HELLO_TIMER_EXPIRY (R122). -/
  | helloTimerExpiry
  /-- ACK_TIMER_EXPIRY (R142). -/
  | ackTimerExpiry
  /-- RETRY_LIMIT_REPORT (R126). -/
  | retryLimitReport
  /-- REQUEST_TAKEN (R21): the request at the upstream port. -/
  | requestTaken (r : Request)
  /-- DOWNSTREAM_RESPONSE (R25): the response that arrives at the downstream port. -/
  | downstreamResponse (r : Response)
  /-- RESPONSE_ACCEPTED (R29). -/
  | responseAccepted
  /-- SPACE_FREED_REPORT (R35). -/
  | spaceFreedReport
  /-- APPEND_CLAIM (R63): the claimant whose oldest waiting claim is taken. -/
  | appendClaim (claimant : Claimant)
  /-- DOWNLINK_BYTE (R108). -/
  | downlinkByte (b : Byte)
  /-- RECORDER_HELLO (R124): the expected sequence. -/
  | recorderHello (expected : Seq)
  /-- ACK (R138): its number n. -/
  | ack (n : Seq)
  /-- NAK (R139): its number n. -/
  | nak (n : Seq)
  /-- GET_ENTRY, code 01h (R157). -/
  | getEntry (tag : Byte) (args : List Byte)
  /-- SET_ENTRY, code 02h (R15, R158). -/
  | setEntry (tag : Byte) (args : List Byte)
  /-- CLEAR_TABLE, code 03h (R17, R158). -/
  | clearTable (tag : Byte) (args : List Byte)
  /-- GET_PARAM, code 04h (R159). -/
  | getParam (tag : Byte) (args : List Byte)
  /-- SET_PARAM, code 05h (R160). -/
  | setParam (tag : Byte) (args : List Byte)
  /-- GET_STATUS, code 06h (R161). -/
  | getStatus (tag : Byte) (args : List Byte)
  /-- CLEAR_ALERTS, code 07h (R162). -/
  | clearAlerts (tag : Byte) (args : List Byte)
  /-- FLUSH, code 08h (R163). -/
  | flush (tag : Byte) (args : List Byte)
  /-- MARK, code 09h (R164). -/
  | mark (tag : Byte) (args : List Byte)
  /-- FREEZE, code 0Ah (R98, R166). -/
  | freeze (tag : Byte) (args : List Byte)
  /-- THAW, code 0Bh (R99, R166). -/
  | thaw (tag : Byte) (args : List Byte)
  /-- RESTART_JOURNAL, code 0Ch (R165). -/
  | restartJournal (tag : Byte) (args : List Byte)
  /-- UNKNOWN_COMMAND_CODE (R153): a code outside 01h to 0Ch. -/
  | unknownCommandCode (tag : Byte) (code : Byte) (args : List Byte)
  /-- FRAME_BOUNDARY (R132). -/
  | frameBoundary
  /-- SEND_END (R136). -/
  | sendEnd
deriving DecidableEq, Repr

end Sys2Proof
end

