-- ==== Sys2Proof/Config.lean ====
section
/-! DEFINITION. The figures that the manual fixes for every KZ-2410, and the free values: orders that the manual leaves open
and that no order of commands can show (R91, log 24; R176, log 28; R118, log 22; R109, log 9). -/

namespace Sys2Proof.Config

/-- Record space of the journal store, in bytes (R58). -/
def storeBytes : Nat := 16384

/-- Places of the frame list (R59). -/
def framePlaces : Nat := 32

/-- Places of the tracking list (R23). -/
def trackingPlaces : Nat := 8

/-- Places of the reply queue (R149). -/
def replyPlaces : Nat := 4

/-- Bytes of the link receiver's collection buffer (R107). -/
def collectPlaces : Nat := 64

/-- The age at which the age of the OPEN frame stops (R64). -/
def ageStop : Nat := 65536

/-- Length of a LOSS record (R54, Table 3-9). -/
def lossBytes : Nat := 8

/-- The delimiter C3h (R102). -/
def delimiter : Byte := 0xC3

/-- The escape CCh (R102). -/
def escape : Byte := 0xCC

/-- The second byte of an escaped C3h, D3h (R102). -/
def escapedDelimiter : Byte := 0xD3

/-- The second byte of an escaped CCh, DCh (R102). -/
def escapedEscape : Byte := 0xDC

/-- Part code 2410h of the uplink HELLO (R113). -/
def partCode : BitVec 16 := 0x2410

/-- Revision 01h of the uplink HELLO (R113). -/
def revision : Byte := 0x01

/-- CLK periods of one byte time (R103). -/
def clkPerByte : Nat := 8

/-- CLK periods within which a command is complete: 2 byte times (R103, R155). -/
def commandPeriods : Nat := 16

/-- Free value (R91, log 24): at the n-th tick that meets a new FILTER-CODE, the marker unit takes the tick before it. -/
opaque markersTickFirst : Nat → Bool

/-- Free value (R91, log 24): at the n-th tick that meets a new FILTER-CODE, the freeze unit takes the tick before it. -/
opaque freezeTickFirst : Nat → Bool

/-- The owners of the fields of the status data (Table 6-18). -/
inductive StatusOwner where
  | path
  | jctl
  | tbs
  | mrk
  | frzu
  | lrx
  | lctl
  | ltx
  | dlv
  | cmd
  | alr
deriving DecidableEq, Repr

/-- Free value (R176, log 28): at the n-th draw, a moment of the execution of a GET-STATUS, the owner answers. -/
opaque answersNow : Nat → StatusOwner → Bool

/-- The blocks that take a change of the link state as an event of their own (R118, R127, R145). -/
inductive LinkBlock where
  | lrx
  | ltx
  | dlv
  | cmd
  | alr
deriving DecidableEq, Repr

/-- Free value (R118, log 22): of the change of the link state at the n-th draw, the block takes its part later and not in the
step of the link controller. -/
opaque takesLate : Nat → LinkBlock → Bool

/-- Free value (R109, log 9): at the n-th draw, a body that ends together with the move from TRAINING to UP is judged before the
move is taken. -/
opaque judgesFirst : Nat → Bool

end Sys2Proof.Config
end

