-- ==== Sys2Proof/Machine/State.lean ====
section
/-! DEFINITION. Every piece of state the spec gives the part, as plain data: one structure for each block of Table 0-2,
the messages that wait between blocks, the input pins and the queue of commands; and the state after cold reset.
Byte counts, store bytes used, the effective freeze state and ALERT_N are functions of what stands here (log 15). -/

namespace Sys2Proof.Machine

/-- Why the part would stop. The spec names no such event (INVENTORY, Faults), so there is no constructor and no command
ever faults: safe. -/
inductive Fault where
deriving DecidableEq, Repr

/-- Why a command has no meaning. -/
inductive Refusal where
  /-- Raised by an arm of `exec` for a row that has no meaning yet: safe. No arm raises it. -/
  | notModelled (mnemonic : String)
deriving DecidableEq, Repr

/-- A timer (R87): `none` while stopped, `some n` while running with n ticks left. `some 0` is an expiry that has come
due and that its owner has not yet taken (log 7). -/
abbrev Timer := Option Nat

/-! ### Watch table -/

/-- Request kinds an entry can qualify for (Table 1-2). -/
inductive Kinds where
  | writes
  | reads
  | both
deriving DecidableEq, Repr

/-- Write form (Table 1-2, R4). -/
inductive WriteForm where
  | none
  | address
  | after
  | both
deriving DecidableEq, Repr

/-- Read form (Table 1-2, R4). -/
inductive ReadForm where
  | none
  | address
deriving DecidableEq, Repr

/-- Loss policy (R5). -/
inductive LossPolicy where
  | hold
  | drop
deriving DecidableEq, Repr

/-- Refusal response (R5). -/
inductive Refuse where
  | error
  | silent
deriving DecidableEq, Repr

/-- A watch entry: the fields of Table 1-2. -/
structure WatchEntry where
  valid       : Bool
  base        : Addr
  limit       : Addr
  kinds       : Kinds
  sourceValue : BitVec 4
  sourceMask  : BitVec 4
  writeForm   : WriteForm
  readForm    : ReadForm
  lossPolicy  : LossPolicy
  freezable   : Bool
  refusal     : Refuse
  closeAfter  : Bool
  hitCount    : BitVec 16
deriving DecidableEq, Repr

/-- An entry after cold reset (R18). -/
def WatchEntry.reset : WatchEntry :=
  { valid := false, base := 0x00000000, limit := 0x00000003, kinds := .writes, sourceValue := 0, sourceMask := 0,
    writeForm := .none, readForm := .none, lossPolicy := .drop, freezable := false, refusal := .error,
    closeAfter := false, hitCount := 0 }

/-- The sixteen entries (R1). -/
structure WatchTable where
  entries : Vector WatchEntry 16
deriving DecidableEq, Repr

/-! ### Records and frames -/

/-- What a WRITE record holds besides its byte enables: its form, with after-data and before-data where the form and the
outcome of the before-image read give them (Table 3-4). `bothFailed` is form BOTH with pre-read failed yes. -/
inductive WriteData where
  | address
  | after (after : List DataWord)
  | both (after before : List DataWord)
  | bothFailed (after : List DataWord)
deriving DecidableEq, Repr

/-- Contribution whose change made an effective change of freeze (R52). -/
inductive FreezeCause where
  | pin
  | command
deriving DecidableEq, Repr

/-- Origin of a MARK record (Table 3-6). -/
inductive MarkOrigin where
  | pin (pin : MarkPin)
  | recorder
deriving DecidableEq, Repr

/-- The contents of a record apart from its time offset (chapter 3). -/
inductive RecordBody where
  | write (entry source beatsLess1 : BitVec 4) (address : Addr) (enables : List (BitVec 4)) (data : WriteData)
  | read (entry source beatsLess1 : BitVec 4) (address : Addr)
  | refused (entry source beatsLess1 : BitVec 4) (address : Addr) (enables : List (BitVec 4))
  | failed (entry source beatsLess1 : BitVec 4) (address : Addr)
  | mark (origin : MarkOrigin) (code : BitVec 16)
  | freeze (on : Bool) (cause : FreezeCause)
  | loss (count : BitVec 32)
deriving DecidableEq, Repr

/-- A record as the store holds it: its contents and its time offset (R41). -/
structure Record where
  body   : RecordBody
  offset : BitVec 16
deriving DecidableEq, Repr

/-- Close cause of a frame (Table 4-4). -/
inductive CloseCause where
  | limit
  | age
  | idle
  | flush
  | entry
  | mark
deriving DecidableEq, Repr

/-- States of a frame that is not OPEN (Table 4-3). -/
inductive FrameState where
  | closed
  | sending
  | sent
deriving DecidableEq, Repr

/-- A held frame that is not OPEN (Table 4-2): it has a close cause and no age. -/
structure Frame where
  seq        : Seq
  state      : FrameState
  baseTime   : BitVec 32
  records    : List Record
  closeCause : CloseCause
  sentBefore : Bool
  retryCount : Nat
deriving DecidableEq, Repr

/-- The OPEN frame (Table 4-2): it has an age and no close cause; sent-before is no and the retry count 0 (R67). -/
structure OpenFrame where
  seq      : Seq
  baseTime : BitVec 32
  age      : Nat
  records  : List Record
deriving DecidableEq, Repr

/-- The journal controller (Table 4-5). `frames` are the held frames that are not OPEN, oldest first; `openFrame` is the
one OPEN frame, which is the newest held frame (R59, R67). -/
structure Journal where
  frames          : List Frame
  openFrame       : Option OpenFrame
  nextSeq         : Seq
  epoch           : BitVec 16
  pendingLoss     : BitVec 32
  idleTimer       : Timer
  frameLimit      : Nat
  idleClose       : Nat
  recordsAppended : BitVec 32
  recordsLost     : BitVec 32
  framesClosed    : BitVec 32
deriving DecidableEq, Repr

/-- The journal controller after cold reset (R83). -/
def Journal.reset : Journal :=
  { frames := [], openFrame := none, nextSeq := 0, epoch := 0, pendingLoss := 0, idleTimer := none, frameLimit := 1024,
    idleClose := 200, recordsAppended := 0, recordsLost := 0, framesClosed := 0 }

/-- Close option of a claim (R63). -/
inductive CloseOption where
  | none
  | entry
  | mark
deriving DecidableEq, Repr

/-- An append claim (R63). -/
structure Claim where
  body   : RecordBody
  policy : LossPolicy
  close  : CloseOption
deriving DecidableEq, Repr

/-- The answer to a claim (R63). -/
inductive Answer where
  | appended
  | noSpace
deriving DecidableEq, Repr

/-! ### Path controller -/

/-- The attributes that classification gives for a request (R9). `form` is the form that applies to the request's kind: a
read form ADDRESS is held as `WriteForm.address`, a read form NONE as `WriteForm.none`. -/
structure Attributes where
  entry      : BitVec 4
  form       : WriteForm
  lossPolicy : LossPolicy
  refused    : Bool
  refusal    : Refuse
  closeAfter : Bool
deriving DecidableEq, Repr

/-- A request in hand and its classification, `none` for an unwatched request (R21). -/
structure InHand where
  request : Request
  attrs   : Option Attributes
deriving DecidableEq, Repr

/-- Path controller states (Table 2-3) with what each holds in hand. PRE-READ and HOLD hold a captured request, so they
hold its attributes; HOLD also holds the contents of its record (R34). `claiming` is the model's own (log 6): the claim for
the request in hand has been made and not yet answered (R33). -/
inductive PathState where
  | idle
  | waitSlot (hand : InHand)
  | preRead (request : Request) (attrs : Attributes)
  | claiming (request : Request) (attrs : Attributes) (record : RecordBody)
  | hold (request : Request) (attrs : Attributes) (record : RecordBody)
deriving DecidableEq, Repr

/-- Class of a tracking item, with the fields that belong to the class (Table 2-5). An item of an unwatched request has no
entry index and is not captured. -/
inductive ItemClass where
  | unwatched
  | forwarded (entry : BitVec 4) (captured : Bool)
  | preRead
  | local (status : Status)
deriving DecidableEq, Repr

/-- Phase of a tracking item (Table 2-5): an ANSWERING item offers its response upstream (R26). -/
inductive Phase where
  | waiting
  | answering (response : Response)
deriving DecidableEq, Repr

/-- A tracking list item (Table 2-5). -/
structure Item where
  cls        : ItemClass
  kind       : ReqKind
  source     : BitVec 4
  address    : Addr
  beatsLess1 : BitVec 4
  phase      : Phase
deriving DecidableEq, Repr

/-- The path controller (Table 2-1). `held` are the responses held back at the downstream port, oldest first (R25);
`issued` are the requests issued on the downstream port and not yet answered, oldest first (R24). -/
structure Path where
  state              : PathState
  tracking           : List Item
  stallTimer         : Timer
  stallLimit         : Nat
  held               : List Response
  issued             : List Request
  writesRefused      : BitVec 32
  stallExpiries      : BitVec 16
  writeFailures      : BitVec 16
  unmatchedResponses : BitVec 16
deriving DecidableEq, Repr

/-- The path controller after cold reset (R40). -/
def Path.reset : Path :=
  { state := .idle, tracking := [], stallTimer := none, stallLimit := 100, held := [], issued := [], writesRefused := 0,
    stallExpiries := 0, writeFailures := 0, unmatchedResponses := 0 }

/-! ### Timebase, marker unit, freeze unit -/

/-- The timebase (Table 5-3). `shiftInUse` is the shift of the tick period in progress (R85); `tickDue` says that the
prescaler has counted all its periods and that the tick has not yet been taken (log 2). -/
structure Timebase where
  tickShift  : Nat
  shiftInUse : Nat
  prescaler  : Nat
  tickDue    : Bool
  time       : BitVec 32
deriving DecidableEq, Repr

/-- The timebase after cold reset (R88). -/
def Timebase.reset : Timebase := { tickShift := 10, shiftInUse := 10, prescaler := 0, tickDue := false, time := 0 }

/-- An input filter (Table 5-5). -/
structure Filter where
  level        : Bool
  disagreement : Nat
deriving DecidableEq, Repr

/-- A filter after cold reset: the pin's level when RESET_N rises (R92). -/
def Filter.reset (pin : Bool) : Filter := { level := pin, disagreement := 0 }

/-- One thing for each of MARK0 to MARK3. -/
structure PerMark (α : Type) where
  m0 : α
  m1 : α
  m2 : α
  m3 : α
deriving DecidableEq, Repr

/-- The marker unit (Table 5-5, R93). `codeInUse` is the FILTER-CODE of its last sample, from which a tick taken before a
new value still goes (R91, log 24). A MARKERn value has its mode in bits 1 and 0 and its close option in bit 2. -/
structure MarkerUnit where
  filters    : PerMark Filter
  filterCode : Nat
  codeInUse  : Nat
  markers    : PerMark (BitVec 3)
deriving DecidableEq, Repr

/-- The marker unit after cold reset (R92, R93). -/
def MarkerUnit.reset (p : Pins) : MarkerUnit :=
  { filters := ⟨Filter.reset p.mark0, Filter.reset p.mark1, Filter.reset p.mark2, Filter.reset p.mark3⟩,
    filterCode := 2, codeInUse := 2, markers := ⟨0, 0, 0, 0⟩ }

/-- The freeze unit (Table 5-8). Pin freeze is the filtered FRZ level. `filterCode` is the value that the marker unit
passed on (R160), `codeInUse` that of the last sample (R91, log 24). -/
structure FreezeUnit where
  filter        : Filter
  filterCode    : Nat
  codeInUse     : Nat
  commandFreeze : Bool
deriving DecidableEq, Repr

/-- The freeze unit after cold reset (R101). -/
def FreezeUnit.reset (p : Pins) : FreezeUnit :=
  { filter := Filter.reset p.frz, filterCode := 2, codeInUse := 2, commandFreeze := false }

/-! ### Record link -/

/-- Reasons for discarding a downlink body (R111). -/
inductive Discard where
  | abort
  | escape
  | length
  | crc
  | kind
  | state
deriving DecidableEq, Repr

/-- Decoding states of the link receiver (Table 6-4), with the bytes collected or the reason already fixed (R107). -/
inductive RxState where
  | notDecoding
  | between
  | collecting (bytes : List Byte)
  | escaped (bytes : List Byte)
  | discarding (reason : Discard)
deriving DecidableEq, Repr

/-- The six discard counters (R111). -/
structure DiscardCounters where
  abort  : BitVec 16
  escape : BitVec 16
  length : BitVec 16
  crc    : BitVec 16
  kind   : BitVec 16
  state  : BitVec 16
deriving DecidableEq, Repr

/-- The link receiver (R107, R119). -/
structure LinkReceiver where
  rx          : RxState
  settleCount : Nat
  settleCode  : Nat
  discards    : DiscardCounters
deriving DecidableEq, Repr

/-- The link receiver after cold reset (R107, R111, R119). -/
def LinkReceiver.reset : LinkReceiver :=
  { rx := .notDecoding, settleCount := 0, settleCode := 3, discards := ⟨0, 0, 0, 0, 0, 0⟩ }

/-- Link states (R118). -/
inductive Link where
  | down
  | training
  | up
deriving DecidableEq, Repr

/-- The link controller (Table 7-5). -/
structure LinkController where
  link          : Link
  silenceTimer  : Timer
  helloTimer    : Timer
  helloInterval : Nat
  silenceLimit  : Nat
deriving DecidableEq, Repr

/-- The link controller after cold reset (R129). -/
def LinkController.reset : LinkController :=
  { link := .down, silenceTimer := none, helloTimer := none, helloInterval := 50, silenceLimit := 1000 }

/-- Kind of the body in progress on the uplink (Table 6-2); a JOURNAL body names its frame. -/
inductive TxKind where
  | journal (seq : Seq)
  | reply
  | hello
deriving DecidableEq, Repr

/-- A body in progress on the uplink: its bytes from the kind byte through the last byte before the check value, fixed
when the transmitter starts it (R113). -/
structure TxBody where
  kind  : TxKind
  bytes : List Byte
deriving DecidableEq, Repr

/-- The link transmitter (Table 6-2, R122, R135). `abortBytes` are the bytes of an abort still to be sent (R105);
`byteClk` counts the CLK periods of the byte time in progress (R103); `byteDue` says that a byte time has begun whose byte
has not yet been put on the uplink, and `lastByte` is the byte last put there (log 2). -/
structure LinkTransmitter where
  body           : Option TxBody
  bytesSent      : Nat
  escapeSent     : Bool
  check          : BitVec 16
  abortBytes     : List Byte
  helloPending   : Bool
  byteClk        : Nat
  byteDue        : Bool
  lastByte       : Option Byte
  retransmitted  : BitVec 32
deriving DecidableEq, Repr

/-- The link transmitter after cold reset (R104, R129). -/
def LinkTransmitter.reset : LinkTransmitter :=
  { body := none, bytesSent := 0, escapeSent := false, check := 0xFFFF, abortBytes := [], helloPending := false,
    byteClk := 0, byteDue := true, lastByte := none, retransmitted := 0 }

/-- The delivery controller (Table 8-2). -/
structure Delivery where
  deliveryOpen : Bool
  ackTimer     : Timer
  sendWindow   : Nat
  ackTimeout   : Nat
  retryLimit   : Nat
  range        : BitVec 16
deriving DecidableEq, Repr

/-- The delivery controller after cold reset (R131). -/
def Delivery.reset : Delivery :=
  { deliveryOpen := false, ackTimer := none, sendWindow := 8, ackTimeout := 400, retryLimit := 4, range := 0 }

/-! ### Commands and alerts -/

/-- Result codes (Table 9-4). -/
inductive Result where
  | ok
  | badCommand
  | badLength
  | badIndex
  | badRange
  | badValue
  | pinHeld
  | empty
deriving DecidableEq, Repr

/-- A reply (R149). -/
structure Reply where
  tag    : Byte
  code   : Byte
  result : Result
  data   : List Byte
deriving DecidableEq, Repr

/-- Execution state of the command unit (R149). -/
inductive ExecState where
  | ready
  | executing
deriving DecidableEq, Repr

/-- What one owner answers to a GET-STATUS: its fields of bytes 0 to 21 and its counters of bytes 22 to 63 (Table 6-18). -/
structure OwnerAnswer where
  fields   : List Byte
  counters : List Byte
deriving DecidableEq, Repr

/-- A GET-STATUS being executed (R161, R176, log 28): the tag of the command, whether the counters are to be cleared, the
owners that have answered, with their answers, and the CLK periods of the execution that have gone by (R155). -/
structure StatusReading where
  tag     : Byte
  clear   : Bool
  answers : List (Config.StatusOwner × OwnerAnswer)
  periods : Nat
deriving DecidableEq, Repr

/-- The command unit (Table 9-2). The last-tag memory is the last reply formed: the reply holds its tag. `reading` is the
GET-STATUS that it is EXECUTING. -/
structure CommandUnit where
  execState         : ExecState
  reading           : Option StatusReading
  replies           : List Reply
  lastTag           : Option Reply
  commandsDiscarded : BitVec 16
deriving DecidableEq, Repr

/-- The command unit after cold reset (R149). -/
def CommandUnit.reset : CommandUnit :=
  { execState := .ready, reading := none, replies := [], lastTag := none, commandsDiscarded := 0 }

/-- The alert unit (R169, R171): bits 0 to 5 are LOSS, STALL, LINK, LINE, FAILED and FREEZE (Table 6-19). -/
structure AlertUnit where
  flags  : BitVec 6
  enable : BitVec 6
deriving DecidableEq, Repr

/-- The alert unit after cold reset (R171). -/
def AlertUnit.reset : AlertUnit := { flags := 0, enable := 63 }

/-! ### Messages between blocks -/

/-- A downlink body that the receiver has accepted and handed on (R110). -/
inductive Body where
  | hello (expected : Seq)
  | ack (n : Seq)
  | nak (n : Seq)
  | command (tag code : Byte) (args : List Byte)
deriving DecidableEq, Repr

/-- A claim that waits for the journal controller, with its claimant (R56). -/
structure WaitingClaim where
  claimant : Claimant
  claim    : Claim
deriving DecidableEq, Repr

/-- The blocks that have not yet taken an entry to DOWN of the link controller (R118, R127, log 22). -/
structure FallMarks where
  lrx : Bool
  ltx : Bool
  dlv : Bool
  cmd : Bool
  alr : Bool
deriving DecidableEq, Repr

/-- Every block has taken the entry to DOWN. -/
def FallMarks.none : FallMarks := { lrx := false, ltx := false, dlv := false, cmd := false, alr := false }

/-- What one block has made and another has not yet taken: claims, oldest first (log 5), space-freed reports and retry-limit
reports (log 8), the body handed on (R110, log 9), the frame-received report of a body that the link controller has not yet
taken (R110, R123, log 10), the entry to DOWN at the blocks that have not yet taken it (R118, R127,
log 22), the recorder HELLO of the entry to UP that the delivery controller has not yet taken (R145, log 22), and the send
end that the journal controller and the send-end report that the delivery controller have not yet taken (R136, R144,
log 12). -/
structure Wires where
  claims       : List WaitingClaim
  spaceFreed   : Nat
  retryReports : Nat
  handedOn     : Option Body
  frameReport  : Bool
  falling      : FallMarks
  upHello      : Option Seq
  sendEnd      : Bool
  sendReport   : Bool
deriving DecidableEq, Repr

/-- No message waits. -/
def Wires.reset : Wires :=
  { claims := [], spaceFreed := 0, retryReports := 0, handedOn := none, frameReport := false,
    falling := FallMarks.none, upHello := none, sendEnd := false, sendReport := false }

/-! ### The part -/

/-- The state of the part, the queue of commands that wait to be run, and the number of free choices drawn so far, which is
the model's own (log 9, log 22, log 24, log 28). -/
structure State where
  path    : Path
  wtab    : WatchTable
  jctl    : Journal
  tbs     : Timebase
  mrk     : MarkerUnit
  frzu    : FreezeUnit
  lrx     : LinkReceiver
  lctl    : LinkController
  ltx     : LinkTransmitter
  dlv     : Delivery
  cmd     : CommandUnit
  alr     : AlertUnit
  pins    : Pins
  wires   : Wires
  pending : List Instr
  choices : Nat
deriving DecidableEq, Repr

/-- All input pins low (log 3). -/
def lowPins : Pins := ⟨false, false, false, false, false⟩

/-- The state when RESET_N rises while the pins hold the levels `p`: every block at its column 'After cold reset', no
message waiting, no command queued and no choice drawn. -/
def State.afterReset (p : Pins) : State :=
  { path := Path.reset, wtab := { entries := Vector.replicate 16 WatchEntry.reset }, jctl := Journal.reset,
    tbs := Timebase.reset, mrk := MarkerUnit.reset p, frzu := FreezeUnit.reset p, lrx := LinkReceiver.reset,
    lctl := LinkController.reset, ltx := LinkTransmitter.reset, dlv := Delivery.reset, cmd := CommandUnit.reset,
    alr := AlertUnit.reset, pins := p, wires := Wires.reset, pending := [], choices := 0 }

/-- The machine right after reset, with the input pins low (log 3). -/
def State.reset : State := State.afterReset lowPins

/-! ### Replacing one part of the state -/

/-- The state with the path controller replaced. -/
def State.withPath (s : State) (x : Path) : State := { s with path := x }
/-- The state with the watch table replaced. -/
def State.withWtab (s : State) (x : WatchTable) : State := { s with wtab := x }
/-- The state with the journal controller replaced. -/
def State.withJctl (s : State) (x : Journal) : State := { s with jctl := x }
/-- The state with the timebase replaced. -/
def State.withTbs (s : State) (x : Timebase) : State := { s with tbs := x }
/-- The state with the marker unit replaced. -/
def State.withMrk (s : State) (x : MarkerUnit) : State := { s with mrk := x }
/-- The state with the freeze unit replaced. -/
def State.withFrzu (s : State) (x : FreezeUnit) : State := { s with frzu := x }
/-- The state with the link receiver replaced. -/
def State.withLrx (s : State) (x : LinkReceiver) : State := { s with lrx := x }
/-- The state with the link controller replaced. -/
def State.withLctl (s : State) (x : LinkController) : State := { s with lctl := x }
/-- The state with the link transmitter replaced. -/
def State.withLtx (s : State) (x : LinkTransmitter) : State := { s with ltx := x }
/-- The state with the delivery controller replaced. -/
def State.withDlv (s : State) (x : Delivery) : State := { s with dlv := x }
/-- The state with the command unit replaced. -/
def State.withCmd (s : State) (x : CommandUnit) : State := { s with cmd := x }
/-- The state with the alert unit replaced. -/
def State.withAlr (s : State) (x : AlertUnit) : State := { s with alr := x }
/-- The state with the input pins replaced. -/
def State.withPins (s : State) (x : Pins) : State := { s with pins := x }
/-- The state with the waiting messages replaced. -/
def State.withWires (s : State) (x : Wires) : State := { s with wires := x }
/-- The state with the queue of commands replaced. -/
def State.withPending (s : State) (x : List Instr) : State := { s with pending := x }
/-- The state with the number of choices drawn replaced. -/
def State.withChoices (s : State) (x : Nat) : State := { s with choices := x }

end Sys2Proof.Machine
end

