-- ==== Sys2Proof/Machine/Flags.lean ====
section
/-! DEFINITION. Counters, timers, alert flags and the two lines that follow from other state: the effective freeze state
and ALERT_N. -/

namespace Sys2Proof.Machine

/-! ### Counters and timers -/

/-- One more event at a saturating counter (R173; also R14 and R71). -/
def satInc {w : Nat} (x : BitVec w) : BitVec w := if x = BitVec.allOnes w then x else x + 1

/-- One tick at a timer (R87): a running timer has one tick less to go; an expiry already due stays due. -/
def tickTimer (t : Timer) : Timer := t.map (· - 1)

/-- The timer's expiry is due: its Nth tick has been taken (R87). -/
def expiryDue (t : Timer) : Bool := t == some 0

/-! ### Alerts (R169 to R172) -/

/-- Bit 0, LOSS (Table 6-19). -/
def lossFlag : BitVec 6 := 0x01
/-- Bit 1, STALL. -/
def stallFlag : BitVec 6 := 0x02
/-- Bit 2, LINK. -/
def linkFlag : BitVec 6 := 0x04
/-- Bit 3, LINE. -/
def lineFlag : BitVec 6 := 0x08
/-- Bit 4, FAILED. -/
def failedFlag : BitVec 6 := 0x10
/-- Bit 5, FREEZE. -/
def freezeFlag : BitVec 6 := 0x20

/-- A set request for a flag (R169): the flag is set; a flag already set stays set. -/
def State.setAlert (flag : BitVec 6) (s : State) : State :=
  s.withAlr { s.alr with flags := s.alr.flags ||| flag }

/-- ALERT_N is driven low: at least one flag is set whose bit is 1 in ALERT-ENABLE (R171). -/
def State.alertLow (s : State) : Bool := (s.alr.flags &&& s.alr.enable) != 0

/-! ### Freeze (R96) -/

/-- Pin freeze: the filtered FRZ level (Table 5-8). -/
def FreezeUnit.pinFreeze (f : FreezeUnit) : Bool := f.filter.level

/-- The effective freeze state: on while command freeze or pin freeze is on (R96). -/
def FreezeUnit.effective (f : FreezeUnit) : Bool := f.commandFreeze || f.pinFreeze

end Sys2Proof.Machine
end

