-- ==== Sys2Proof/WellFormed.lean ====
section
/-! DEFINITION. What the outside can send: the checks that the bus (R19, R20) and the link receiver (R109) make sure of
before an event reaches the part. The part makes no check of its own on them, and `exec` gives ill-formed commands a
meaning too (log 17, log 23). -/

namespace Sys2Proof

/-- The beat count of a request, 1 to 16 (Table 2-2). -/
def Request.beatCount (r : Request) : Nat := r.beatsLess1.toNat + 1

/-- A request as the bus carries it (R19): its address is a multiple of 4; a WRITE has one set of enables and one word for
each beat, a READ has neither. -/
def Request.wellFormed (r : Request) : Bool :=
  r.address.toNat % 4 == 0 &&
  match r.kind with
  | .write => r.enables.length == r.beatCount && r.data.length == r.beatCount
  | .read  => r.enables.isEmpty && r.data.isEmpty

/-- A response carries at most one word for each of at most 16 beats (R20). -/
def Response.wellFormed (r : Response) : Bool := decide (r.data.length ≤ 16)

/-- The argument bytes of a COMMAND body that the receiver accepts: 0 to 59 (R109). -/
def argsWellFormed (args : List Byte) : Bool := decide (args.length ≤ 59)

/-- The codes 01h to 0Ch name the twelve commands (Table 6-15, R153). -/
def isKnownCode (code : Byte) : Bool := decide (1 ≤ code.toNat ∧ code.toNat ≤ 12)

/-- The commands that the outside can send. -/
def Instr.wellFormed : Instr → Bool
  | .coldReset _ => true
  | .tick _ => true
  | .stallTimerExpiry => true
  | .idleCloseTimerExpiry => true
  | .silenceTimerExpiry => true
  | .helloTimerExpiry => true
  | .ackTimerExpiry => true
  | .retryLimitReport => true
  | .requestTaken r => r.wellFormed
  | .downstreamResponse r => r.wellFormed
  | .responseAccepted => true
  | .spaceFreedReport => true
  | .appendClaim _ => true
  | .downlinkByte _ => true
  | .recorderHello _ => true
  | .ack _ => true
  | .nak _ => true
  | .getEntry _ args => argsWellFormed args
  | .setEntry _ args => argsWellFormed args
  | .clearTable _ args => argsWellFormed args
  | .getParam _ args => argsWellFormed args
  | .setParam _ args => argsWellFormed args
  | .getStatus _ args => argsWellFormed args
  | .clearAlerts _ args => argsWellFormed args
  | .flush _ args => argsWellFormed args
  | .mark _ args => argsWellFormed args
  | .freeze _ args => argsWellFormed args
  | .thaw _ args => argsWellFormed args
  | .restartJournal _ args => argsWellFormed args
  | .unknownCommandCode _ code args => argsWellFormed args && !isKnownCode code
  | .frameBoundary => true
  | .sendEnd => true

end Sys2Proof
end

