-- ==== Sys2Proof/Machine/Operands.lean ====
section
/-! DEFINITION. Operand forms and byte layouts: the bytes a request covers, record lengths and record layouts, link frame
bodies, command arguments, codes and reply data (chapters 3, 6 and 9). -/

namespace Sys2Proof.Machine

/-! ### Multi-byte fields, most significant byte first (00, Numbers) -/

/-- Two bytes, most significant first. -/
def be16 (x : BitVec 16) : List Byte := [x.extractLsb' 8 8, x.extractLsb' 0 8]

/-- Four bytes, most significant first. -/
def be32 (x : BitVec 32) : List Byte :=
  [x.extractLsb' 24 8, x.extractLsb' 16 8, x.extractLsb' 8 8, x.extractLsb' 0 8]

/-- The argument byte at an offset after the command code (Table 6-15). -/
def argByte (args : List Byte) (i : Nat) : Byte := args.getD i 0

/-- The two argument bytes from an offset. -/
def argHalf (args : List Byte) (i : Nat) : BitVec 16 := argByte args i ++ argByte args (i + 1)

/-- The four argument bytes from an offset. -/
def argWord (args : List Byte) (i : Nat) : BitVec 32 := argHalf args i ++ argHalf args (i + 2)

/-! ### Requests -/

/-- The last byte a request covers: its address plus 4 times its beat count, minus 1, modulo 2^32 (R8, R19). -/
def lastCovered (r : Request) : Addr := r.address + BitVec.ofNat 32 (4 * r.beatCount - 1)

/-- The window from base to limit holds a byte that the request covers (R8). A request whose covered bytes wrap covers
two runs, from its address to the top and from 0 to its last byte. -/
def windowOverlaps (base limit : Addr) (r : Request) : Bool :=
  if r.address ≤ lastCovered r then decide (r.address ≤ limit) && decide (base ≤ lastCovered r)
  else decide (r.address ≤ limit) || decide (base ≤ lastCovered r)

/-! ### Records (chapter 3, section 6.6) -/

/-- The beat count held less 1. -/
def beatsOf (beatsLess1 : BitVec 4) : Nat := beatsLess1.toNat + 1

/-- The first `b` members of a list that carries one for each beat. -/
def perBeat {α : Type} (b : Nat) (default : α) (l : List α) : List α := (List.range b).map (fun j => l.getD j default)

/-- A data word's four bytes in address order (R114). -/
def wordBytes (w : DataWord) : List Byte := [w.b0, w.b1, w.b2, w.b3]

/-- The bytes of one data word for each beat. -/
def dataBytes (b : Nat) (l : List DataWord) : List Byte := (perBeat b DataWord.zero l).flatMap wordBytes

/-- One byte for each beat's set of enables: bits 7 to 4 are 0 (R114). -/
def enableBytes (b : Nat) (l : List (BitVec 4)) : List Byte := (perBeat b 0 l).map (fun e => (0 : BitVec 4) ++ e)

/-- Length of a record in bytes (R55, Table 3-9). -/
def recordLength : RecordBody → Nat
  | .write _ _ b _ _ .address        => 10 + beatsOf b
  | .write _ _ b _ _ (.after _)      => 10 + 5 * beatsOf b
  | .write _ _ b _ _ (.both _ _)     => 10 + 9 * beatsOf b
  | .write _ _ b _ _ (.bothFailed _) => 10 + 5 * beatsOf b
  | .read _ _ _ _                    => 10
  | .refused _ _ b _ _               => 10 + beatsOf b
  | .failed _ _ _ _                  => 10
  | .mark _ _                        => 7
  | .freeze _ _                      => 6
  | .loss _                          => 8

/-- Kind code of a record (Table 6-13). -/
def recordKind : RecordBody → Byte
  | .write _ _ _ _ _ _   => 0x01
  | .read _ _ _ _        => 0x02
  | .refused _ _ _ _ _   => 0x03
  | .failed _ _ _ _      => 0x04
  | .mark _ _            => 0x05
  | .freeze _ _          => 0x06
  | .loss _              => 0x07

/-- Bits 3 to 0 of a WRITE record's beats and form byte: bit 2 the pre-read-failed mark, bits 1 and 0 the form (R114). -/
def writeFormBits : WriteData → BitVec 4
  | .address      => 0b0001
  | .after _      => 0b0010
  | .both _ _     => 0b0011
  | .bothFailed _ => 0b0111

/-- After-data and before-data of a WRITE record (Table 3-4). -/
def writeDataBytes (b : Nat) : WriteData → List Byte
  | .address           => []
  | .after after       => dataBytes b after
  | .both after before => dataBytes b after ++ dataBytes b before
  | .bothFailed after  => dataBytes b after

/-- Origin of a MARK record (Table 3-6). -/
def markOriginByte : MarkOrigin → Byte
  | .pin .m0  => 0x00
  | .pin .m1  => 0x01
  | .pin .m2  => 0x02
  | .pin .m3  => 0x03
  | .recorder => 0x04

/-- Own fields of a record, from offset 4 (Table 6-14). -/
def recordFields : RecordBody → List Byte
  | .write e src b a en d => [e ++ src, b ++ writeFormBits d] ++ be32 a ++ enableBytes (beatsOf b) en ++ writeDataBytes (beatsOf b) d
  | .read e src b a       => [e ++ src, b ++ (0 : BitVec 4)] ++ be32 a
  | .refused e src b a en => [e ++ src, b ++ (0 : BitVec 4)] ++ be32 a ++ enableBytes (beatsOf b) en
  | .failed e src b a     => [e ++ src, b ++ (0 : BitVec 4)] ++ be32 a
  | .mark origin code     => markOriginByte origin :: be16 code
  | .freeze on cause      => [if on then 0x01 else 0x00, match cause with | .pin => 0x00 | .command => 0x01]
  | .loss count           => be32 count

/-- A record as the store holds it: the common part of Table 6-13, then its own fields. -/
def recordBytes (r : Record) : List Byte :=
  [recordKind r.body, BitVec.ofNat 8 (recordLength r.body)] ++ be16 r.offset ++ recordFields r.body

/-- The store bytes that a run of records takes (R41, R55). -/
def bytesOf (records : List Record) : Nat := (records.map (fun r => recordLength r.body)).sum

/-! ### Link frame bodies (section 6.5) -/

/-- Close cause code (Table 6-9). -/
def closeCauseCode : CloseCause → Byte
  | .limit => 0x01
  | .age   => 0x02
  | .idle  => 0x03
  | .flush => 0x04
  | .entry => 0x05
  | .mark  => 0x06

/-- JOURNAL body up to its check value (Table 6-9, R113). -/
def journalBody (f : Frame) (epoch : BitVec 16) : List Byte :=
  [0x4A, f.seq] ++ be16 epoch ++ be32 f.baseTime ++ be16 (BitVec.ofNat 16 f.records.length) ++
    [closeCauseCode f.closeCause, if f.sentBefore then 0x01 else 0x00] ++ f.records.flatMap recordBytes

/-- Result code (Table 9-4). -/
def resultCode : Result → Byte
  | .ok         => 0x00
  | .badCommand => 0x01
  | .badLength  => 0x02
  | .badIndex   => 0x03
  | .badRange   => 0x04
  | .badValue   => 0x05
  | .pinHeld    => 0x06
  | .empty      => 0x07

/-- REPLY body up to its check value (Table 6-10). -/
def replyBody (r : Reply) : List Byte := [0x52, r.tag, r.code, resultCode r.result] ++ r.data

/-- Uplink HELLO body up to its check value (Table 6-11). -/
def helloBody (epoch : BitVec 16) (oldest next : Seq) (held : Nat) : List Byte :=
  [0x48] ++ be16 epoch ++ [oldest, next, BitVec.ofNat 8 held] ++ be16 Config.partCode ++ [Config.revision]

/-! ### Watch entries as arguments and reply data (Table 6-16) -/

/-- A flag byte: 00h no, 01h yes, no other. -/
def flagOf (b : Byte) : Option Bool := if b = 0x00 then some false else if b = 0x01 then some true else none

/-- Coding of kinds. -/
def kindsOf (b : Byte) : Option Kinds :=
  if b = 0x00 then some .writes else if b = 0x01 then some .reads else if b = 0x02 then some .both else none

/-- Coding of write form. -/
def writeFormOf (b : Byte) : Option WriteForm :=
  if b = 0x00 then some .none else if b = 0x01 then some .address else if b = 0x02 then some .after
  else if b = 0x03 then some .both else none

/-- Coding of read form. -/
def readFormOf (b : Byte) : Option ReadForm :=
  if b = 0x00 then some .none else if b = 0x01 then some .address else none

/-- Coding of loss policy. -/
def lossPolicyOf (b : Byte) : Option LossPolicy :=
  if b = 0x00 then some .drop else if b = 0x01 then some .hold else none

/-- Coding of refusal response. -/
def refuseOf (b : Byte) : Option Refuse := if b = 0x00 then some .error else if b = 0x01 then some .silent else none

/-- base and limit as SET-ENTRY carries them pass check 2 of Table 1-7. -/
def rangeGood (base limit : Addr) : Bool :=
  decide (base.toNat % 4 = 0) && decide ((limit.toNat + 1) % 4 = 0) && decide (base ≤ limit)

/-- The entry that the 18 argument bytes of SET-ENTRY give, if every enumerated field holds a listed code (check 3 of
Table 1-7); its hit count is 0 (R16). -/
def entryOfArgs (args : List Byte) : Option WatchEntry := do
  let valid ← flagOf (argByte args 1)
  let kinds ← kindsOf (argByte args 10)
  let writeForm ← writeFormOf (argByte args 12)
  let readForm ← readFormOf (argByte args 13)
  let lossPolicy ← lossPolicyOf (argByte args 14)
  let freezable ← flagOf (argByte args 15)
  let refusal ← refuseOf (argByte args 16)
  let closeAfter ← flagOf (argByte args 17)
  some { valid, base := argWord args 2, limit := argWord args 6, kinds,
         sourceValue := (argByte args 11).extractLsb' 4 4, sourceMask := (argByte args 11).extractLsb' 0 4,
         writeForm, readForm, lossPolicy, freezable, refusal, closeAfter, hitCount := 0 }

/-- A flag as a byte. -/
def flagByte (b : Bool) : Byte := if b then 0x01 else 0x00

/-- GET-ENTRY reply data: 20 bytes (Table 6-16). -/
def entryData (index : Byte) (e : WatchEntry) : List Byte :=
  [index, flagByte e.valid] ++ be32 e.base ++ be32 e.limit ++
  [match e.kinds with | .writes => 0x00 | .reads => 0x01 | .both => 0x02,
   e.sourceValue ++ e.sourceMask,
   match e.writeForm with | .none => 0x00 | .address => 0x01 | .after => 0x02 | .both => 0x03,
   match e.readForm with | .none => 0x00 | .address => 0x01,
   match e.lossPolicy with | .drop => 0x00 | .hold => 0x01,
   flagByte e.freezable,
   match e.refusal with | .error => 0x00 | .silent => 0x01,
   flagByte e.closeAfter] ++ be16 e.hitCount

/-! ### Parameters (Table 9-5) -/

/-- The sixteen parameters. -/
inductive Param where
  | frameLimit
  | idleClose
  | tickShift
  | sendWindow
  | ackTimeout
  | retryLimit
  | stallLimit
  | settleCode
  | helloInterval
  | silenceLimit
  | filterCode
  | marker (pin : MarkPin)
  | alertEnable
deriving DecidableEq, Repr

/-- The parameter that an id names; ids 00h and 11h to FFh name none. -/
def paramOf (id : Byte) : Option Param :=
  match id.toNat with
  | 0x01 => some .frameLimit
  | 0x02 => some .idleClose
  | 0x03 => some .tickShift
  | 0x04 => some .sendWindow
  | 0x05 => some .ackTimeout
  | 0x06 => some .retryLimit
  | 0x07 => some .stallLimit
  | 0x08 => some .settleCode
  | 0x09 => some .helloInterval
  | 0x0A => some .silenceLimit
  | 0x0B => some .filterCode
  | 0x0C => some (.marker .m0)
  | 0x0D => some (.marker .m1)
  | 0x0E => some (.marker .m2)
  | 0x0F => some (.marker .m3)
  | 0x10 => some .alertEnable
  | _    => none

/-- The least value SET-PARAM accepts. -/
def paramLeast : Param → Nat
  | .frameLimit    => 256
  | .idleClose     => 0
  | .tickShift     => 0
  | .sendWindow    => 1
  | .ackTimeout    => 1
  | .retryLimit    => 1
  | .stallLimit    => 1
  | .settleCode    => 0
  | .helloInterval => 1
  | .silenceLimit  => 1
  | .filterCode    => 0
  | .marker _      => 0
  | .alertEnable   => 0

/-- The greatest value SET-PARAM accepts. -/
def paramGreatest : Param → Nat
  | .frameLimit    => 4096
  | .idleClose     => 65535
  | .tickShift     => 15
  | .sendWindow    => 16
  | .ackTimeout    => 65535
  | .retryLimit    => 15
  | .stallLimit    => 65535
  | .settleCode    => 3
  | .helloInterval => 65535
  | .silenceLimit  => 65535
  | .filterCode    => 7
  | .marker _      => 7
  | .alertEnable   => 63

/-- The value is in the parameter's range (R160, R167). -/
def paramInRange (p : Param) (v : Nat) : Bool := decide (paramLeast p ≤ v) && decide (v ≤ paramGreatest p)

/-- The settle figure of a SETTLE-CODE (Table 7-4). -/
def settleFigure (code : Nat) : Nat := 64 * 2 ^ code

/-- The filter time of a FILTER-CODE in samples, 0 standing for off (Table 5-4). -/
def filterTime (code : Nat) : Nat := if code = 0 then 0 else 2 ^ (code - 1)

/-- One member of a per-input group. -/
def PerMark.get {α : Type} (x : PerMark α) : MarkPin → α
  | .m0 => x.m0
  | .m1 => x.m1
  | .m2 => x.m2
  | .m3 => x.m3

/-- The group with one member replaced. -/
def PerMark.set {α : Type} (x : PerMark α) (pin : MarkPin) (v : α) : PerMark α :=
  match pin with
  | .m0 => { x with m0 := v }
  | .m1 => { x with m1 := v }
  | .m2 => { x with m2 := v }
  | .m3 => { x with m3 := v }

/-- The level of a marker pin. -/
def markLevel (p : Pins) : MarkPin → Bool
  | .m0 => p.mark0
  | .m1 => p.mark1
  | .m2 => p.mark2
  | .m3 => p.mark3

end Sys2Proof.Machine
end

