-- ==== Sys2Proof/Machine/Ops.lean ====
section
/-! DEFINITION. Shared operations over the journal, the claims and the messages between blocks (chapter 4, and the parts
of chapters 2, 6 and 8 that several commands use). -/

namespace Sys2Proof.Machine

/-! ### Figures of the frame list and the store -/

/-- Frames held, the OPEN frame included (R59). -/
def Journal.framesHeld (j : Journal) : Nat := j.frames.length + if j.openFrame.isSome then 1 else 0

/-- Frames in SENT (R59). -/
def Journal.framesSent (j : Journal) : Nat := j.frames.countP (fun f => decide (f.state = .sent))

/-- Frames in SENDING or SENT (R134). -/
def Journal.framesOut (j : Journal) : Nat := j.frames.countP (fun f => decide (f.state ≠ .closed))

/-- The sequence of the SENDING frame, if any (R76). -/
def Journal.sendingSeq (j : Journal) : Option Seq :=
  (j.frames.find? (fun f => decide (f.state = .sending))).map (·.seq)

/-- The oldest held sequence, or the next sequence when no frame is held (R61). -/
def Journal.oldestHeld (j : Journal) : Seq :=
  match j.frames, j.openFrame with
  | f :: _, _   => f.seq
  | [], some f  => f.seq
  | [], none    => j.nextSeq

/-- Store bytes used: the sum of the byte counts of the held frames (R58). -/
def Journal.storeUsed (j : Journal) : Nat :=
  (j.frames.map (fun f => bytesOf f.records)).sum +
    match j.openFrame with
    | some f => bytesOf f.records
    | none   => 0

/-- Free store bytes (R58). -/
def Journal.storeFree (j : Journal) : Nat := Config.storeBytes - j.storeUsed

/-! ### Closing, placing and losing (R63 to R73) -/

/-- The OPEN frame as it stands once closed with a cause (R72). -/
def closedFrame (f : OpenFrame) (cause : CloseCause) : Frame :=
  { seq := f.seq, state := .closed, baseTime := f.baseTime, records := f.records, closeCause := cause,
    sentBefore := false, retryCount := 0 }

/-- Closing (R72): the OPEN frame, if held, becomes the newest CLOSED frame, its age is dropped, the idle-close timer
stops and frames closed rises. -/
def Journal.closeOpen (cause : CloseCause) (j : Journal) : Journal :=
  match j.openFrame with
  | none   => j
  | some f =>
    { j with frames := j.frames ++ [closedFrame f cause], openFrame := none, idleTimer := none,
             framesClosed := satInc j.framesClosed }

/-- The space a record needs when its claim is taken (R63): 8 bytes more while a loss is pending. -/
def Journal.needed (j : Journal) (body : RecordBody) : Nat :=
  recordLength body + if j.pendingLoss = 0 then 0 else Config.lossBytes

/-- The test of R64 against the OPEN frame: a frame that the claim does not fit is closed, with cause AGE when the age
test fails and LIMIT when only the byte test fails. -/
def Journal.closeIfUnfit (need : Nat) (j : Journal) : Journal :=
  match j.openFrame with
  | none   => j
  | some f =>
    if f.age ≥ Config.ageStop then j.closeOpen .age
    else if bytesOf f.records + need > j.frameLimit then j.closeOpen .limit
    else j

/-- The tests of R65, after R64: the store has the space, and a new frame, where one is needed, has a place. -/
def Journal.hasRoom (need : Nat) (j : Journal) : Bool :=
  decide (need ≤ j.storeFree) && (j.openFrame.isSome || decide (j.framesHeld < Config.framePlaces))

/-- The frame that takes an append: the OPEN frame, or a new frame with the next sequence and the time counter as its base
time (R67). -/
def Journal.frameForAppend (now : BitVec 32) (j : Journal) : OpenFrame :=
  match j.openFrame with
  | some f => f
  | none   => { seq := j.nextSeq, baseTime := now, age := 0, records := [] }

/-- The records an append places: a LOSS record with the pending loss count first, if a loss is pending (R53, R66), and
the claimed record; both with the frame's age as their time offset. -/
def Journal.placedRecords (now : BitVec 32) (body : RecordBody) (j : Journal) : List Record :=
  let offset := BitVec.ofNat 16 (j.frameForAppend now).age
  (if j.pendingLoss = 0 then [] else [⟨.loss j.pendingLoss, offset⟩]) ++ [⟨body, offset⟩]

/-- The append of R66, points 1 to 6. -/
def Journal.append (now : BitVec 32) (body : RecordBody) (j : Journal) : Journal :=
  let frame := j.frameForAppend now
  { j with openFrame       := some { frame with records := frame.records ++ j.placedRecords now body }
           nextSeq         := if j.openFrame.isSome then j.nextSeq else j.nextSeq + 1
           pendingLoss     := 0
           recordsAppended := if j.pendingLoss = 0 then satInc j.recordsAppended else satInc (satInc j.recordsAppended)
           idleTimer       := if j.idleClose = 0 then none else some j.idleClose }

/-- The close that the claim's close option asks for after the append (R66 point 8, R68). -/
def Journal.applyCloseOption (close : CloseOption) (j : Journal) : Journal :=
  match close with
  | .none  => j
  | .entry => j.closeOpen .entry
  | .mark  => j.closeOpen .mark

/-- A record is lost (R69, R70): the pending loss count and the records lost counter rise by 1. -/
def Journal.countLost (j : Journal) : Journal :=
  { j with pendingLoss := satInc j.pendingLoss, recordsLost := satInc j.recordsLost }

/-- The journal controller takes an append claim whole (R63 to R69) and answers. -/
def Journal.take (now : BitVec 32) (c : Claim) (j : Journal) : Journal × Answer :=
  let need := j.needed c.body
  let j1 := j.closeIfUnfit need
  if j1.hasRoom need then ((j1.append now c.body).applyCloseOption c.close, .appended)
  else match c.policy with
    | .drop => (j1.countLost, .noSpace)
    | .hold => (j1, .noSpace)

/-- A claim at the journal controller, with the LOSS alert that a record lost under DROP sets (R69). -/
def State.claim (c : Claim) (s : State) : State × Answer :=
  let taken := s.jctl.take s.tbs.time c
  let s1 := s.withJctl taken.1
  match taken.2, c.policy with
  | .noSpace, .drop => (s1.setAlert lossFlag, .noSpace)
  | answer, _       => (s1, answer)

/-- A lost-record report (R70): counted like a record lost under DROP, nothing else changes. -/
def State.lostRecordReport (s : State) : State := (s.withJctl s.jctl.countLost).setAlert lossFlag

/-! ### Messages between blocks -/

/-- A block hands a claim to the journal controller and does not wait for the answer (R32, R39, R94, R97): the claim waits
until APPEND_CLAIM takes it (log 5). -/
def State.postClaim (claimant : Claimant) (c : Claim) (s : State) : State :=
  s.withWires { s.wires with claims := s.wires.claims ++ [⟨claimant, c⟩] }

/-- The path controller is in HOLD (Table 2-3). -/
def Path.inHold (p : Path) : Bool :=
  match p.state with
  | .hold _ _ _ => true
  | _           => false

/-- The claims that wait of the claimants of this kind are taken, oldest first (R56). -/
def State.takeClaimsOf (p : Claimant → Bool) (s : State) : State :=
  (s.wires.claims.filter (fun w => p w.claimant)).foldl (fun t w => (t.claim w.claim).1)
    (s.withWires { s.wires with claims := s.wires.claims.filter (fun w => !p w.claimant) })

/-- A space-freed report to the path controller (R80): sent while it is not in HOLD, it has no effect; otherwise it waits
until SPACE_FREED_REPORT takes it. -/
def State.sendSpaceFreed (s : State) : State :=
  if s.path.inHold then s.withWires { s.wires with spaceFreed := s.wires.spaceFreed + 1 } else s

/-- No body that the receiver handed on waits any longer. -/
def State.handedOff (s : State) : State := s.withWires { s.wires with handedOn := none }

/-- A body is taken by its block, in the order handed on (R110, R141): while another body waits, this one is not there yet,
and nothing happens; otherwise it no longer waits and `act` follows (log 9). -/
def State.takeHanded (b : Body) (act : State → State) (s : State) : State :=
  match s.wires.handedOn with
  | some first => if first = b then act s.handedOff else s
  | none       => act s.handedOff

/-! ### Frames in delivery (section 4.6) and aborts (R105) -/

/-- A frame taken back to CLOSED; its contents, sent-before and retry count are kept (R77). -/
def returnedFrame (f : Frame) : Frame := { f with state := .closed }

/-- Return to CLOSED (R77): every SENT frame and the SENDING frame become CLOSED. -/
def Journal.returnToClosed (j : Journal) : Journal := { j with frames := j.frames.map returnedFrame }

/-- The frames before the sequence n, counted from the oldest held (R79, R137). -/
def Journal.named (n : Seq) (j : Journal) : Nat := (n - j.oldestHeld).toNat

/-- The number n is in the valid range: n minus the oldest held sequence is at most the number of SENT frames (R137). -/
def Journal.inRange (n : Seq) (j : Journal) : Bool := decide (j.named n ≤ j.framesSent)

/-- Removal (R79): the frames before n leave the frame list. -/
def Journal.remove (n : Seq) (j : Journal) : Journal := { j with frames := j.frames.drop (j.named n) }

/-- A removal asked by the delivery controller, with the space-freed report if a frame was removed (R79, R80). -/
def State.removeBefore (n : Seq) (s : State) : State :=
  if s.jctl.named n = 0 then s else (s.withJctl (s.jctl.remove n)).sendSpaceFreed

/-- The transmitter ends the body in progress (R105): with a delimiter when an escape has just been sent, otherwise with
an escape and a delimiter. The rest of the body and its check value are not sent. DESIGN CHOICE (log 25): the mark 'last
byte sent was an escape awaiting its second byte' stays no while the abort's own escape goes out. DESIGN CHOICE (log 27):
the bytes sent and the check value go back to 0 and FFFFh with the abort. -/
def LinkTransmitter.abortBody (x : LinkTransmitter) : LinkTransmitter :=
  match x.body with
  | none   => x
  | some _ =>
    { x with body := none, bytesSent := 0, escapeSent := false, check := 0xFFFF,
             abortBytes := if x.escapeSent then [Config.delimiter] else [Config.escape, Config.delimiter] }

/-- An abort request that names a journal frame (R105): it ends the body in progress only if that is the JOURNAL body of
this frame. -/
def LinkTransmitter.abortJournal (seq : Seq) (x : LinkTransmitter) : LinkTransmitter :=
  match x.body with
  | some b => if b.kind = .journal seq then x.abortBody else x
  | none   => x

/-- The abort request for the SENDING frame, if a frame is SENDING (R139, R140, R142, R81). -/
def State.abortSending (s : State) : State :=
  match s.jctl.sendingSeq with
  | some seq => s.withLtx (s.ltx.abortJournal seq)
  | none     => s

/-- The frames out are taken back: abort of a SENDING body, return to CLOSED, acknowledgment timer stopped (R139, R140,
R142). -/
def State.takeBack (s : State) : State :=
  let s1 := s.abortSending
  (s1.withJctl s1.jctl.returnToClosed).withDlv { s1.dlv with ackTimer := none }

end Sys2Proof.Machine
end

