-- ==== Sys2Proof/Machine/Status.lean ====
section
/-! DEFINITION. The forming of replies, and the answers of the owners to a GET-STATUS being executed (R117, R154, R161, R175,
R176). -/

namespace Sys2Proof.Machine

/-! ### Replies (R154, R155) -/

/-- The command unit has taken the entry to DOWN and the link is not UP (Table 9-3, step 1). -/
def State.offLine (s : State) : Bool := !s.wires.falling.cmd && decide (s.lctl.link ≠ .up)

/-- A reply is placed at the tail of the queue, unless the command unit has taken the entry to DOWN (R154, R155). -/
def State.queueReply (r : Reply) (s : State) : State :=
  if s.offLine then s else s.withCmd { s.cmd with replies := s.cmd.replies ++ [r] }

/-- The reply of a command is formed (R154): it replaces the last-tag memory, then a copy joins the queue; the command
unit is READY again (R155). -/
def State.giveReply (r : Reply) (s : State) : State :=
  (s.withCmd { s.cmd with lastTag := some r, execState := .ready, reading := none }).queueReply r

/-! ### Fields of the status data (Table 6-18) -/

/-- Link state code (Table 6-18, offset 0). -/
def linkCode (link : Link) : Byte :=
  match link with
  | .down     => 0x00
  | .training => 0x01
  | .up       => 0x02

/-- Path state code (Table 6-18, offset 2). The path controller does not answer while the claim for a request in hand is
unanswered (State.mayAnswer), so `claiming` is never read: it stands with HOLD, in which a request is in hand too (R21,
log 6). -/
def pathCode (p : PathState) : Byte :=
  match p with
  | .idle        => 0x00
  | .waitSlot _  => 0x01
  | .preRead _ _ => 0x02
  | .claiming _ _ _ | .hold _ _ _ => 0x03

/-- A bit of a status byte. -/
def bitAt (i : Nat) (b : Bool) : Byte := if b then (1 : Byte) <<< i else 0

/-- The freeze field (Table 6-18, offset 1). -/
def freezeField (f : FreezeUnit) : Byte := bitAt 0 f.commandFreeze ||| bitAt 1 f.pinFreeze ||| bitAt 2 f.effective

/-- The filtered levels of MARK0 to MARK3 (Table 6-18, offset 17, bits 0 to 3). -/
def markLevels (m : MarkerUnit) : Byte :=
  bitAt 0 m.filters.m0.level ||| bitAt 1 m.filters.m1.level ||| bitAt 2 m.filters.m2.level ||| bitAt 3 m.filters.m3.level

/-- What an owner answers at this moment, its fields together (R117, R176). -/
def State.answer (s : State) (o : Config.StatusOwner) : OwnerAnswer :=
  match o with
  | .lctl => ⟨[linkCode s.lctl.link], []⟩
  | .frzu => ⟨[freezeField s.frzu], []⟩
  | .path => ⟨[pathCode s.path.state, BitVec.ofNat 8 s.path.tracking.length],
              be32 s.path.writesRefused ++ be16 s.path.stallExpiries ++ be16 s.path.writeFailures ++
              be16 s.path.unmatchedResponses⟩
  | .jctl => ⟨[BitVec.ofNat 8 s.jctl.framesHeld, BitVec.ofNat 8 s.jctl.framesSent, s.jctl.oldestHeld, s.jctl.nextSeq] ++
                be16 s.jctl.epoch ++ be16 (BitVec.ofNat 16 s.jctl.storeUsed) ++ be32 s.jctl.pendingLoss,
              be32 s.jctl.recordsAppended ++ be32 s.jctl.recordsLost ++ be32 s.jctl.framesClosed⟩
  | .alr  => ⟨[(0 : BitVec 2) ++ s.alr.flags], []⟩
  | .mrk  => ⟨[markLevels s.mrk], []⟩
  | .tbs  => ⟨be32 s.tbs.time, []⟩
  | .ltx  => ⟨[], be32 s.ltx.retransmitted⟩
  | .cmd  => ⟨[], be16 s.cmd.commandsDiscarded⟩
  | .lrx  => ⟨[], be16 s.lrx.discards.crc ++ be16 s.lrx.discards.length ++ be16 s.lrx.discards.abort ++
                be16 s.lrx.discards.escape ++ be16 s.lrx.discards.kind ++ be16 s.lrx.discards.state⟩
  | .dlv  => ⟨[], be16 s.dlv.range⟩

/-- The pin levels field (Table 6-18, offset 17): the levels of the marker unit, and in bit 4 that of the freeze unit, which
its freeze field has in bit 1 (R176). -/
def pinLevels (mrk frzu : List Byte) : List Byte := mrk.zipWith (fun m f => m ||| bitAt 4 (f.getLsbD 1)) frzu

/-- The 64 bytes of the status data, from each owner's answer (Table 6-18). -/
def statusData (a : Config.StatusOwner → OwnerAnswer) : List Byte :=
  (a .lctl).fields ++ (a .frzu).fields ++ (a .path).fields ++ (a .jctl).fields ++ (a .alr).fields ++
  pinLevels (a .mrk).fields (a .frzu).fields ++ (a .tbs).fields ++
  (a .jctl).counters ++ (a .ltx).counters ++ (a .path).counters ++ (a .cmd).counters ++ (a .lrx).counters ++ (a .dlv).counters

/-! ### The moments at which owners answer (R161, R175, R176; log 28) -/

/-- Each of these owners sets its counters to 0 (R175). -/
def State.clearCounters (of : Config.StatusOwner → Bool) (s : State) : State :=
  let s1 := s.withJctl (if of .jctl then { s.jctl with recordsAppended := 0, recordsLost := 0, framesClosed := 0 }
                        else s.jctl)
  let s2 := s1.withLtx (if of .ltx then { s1.ltx with retransmitted := 0 } else s1.ltx)
  let s3 := s2.withPath (if of .path then { s2.path with writesRefused := 0, stallExpiries := 0, writeFailures := 0,
                                                         unmatchedResponses := 0 } else s2.path)
  let s4 := s3.withCmd (if of .cmd then { s3.cmd with commandsDiscarded := 0 } else s3.cmd)
  let s5 := s4.withLrx (if of .lrx then { s4.lrx with discards := ⟨0, 0, 0, 0, 0, 0⟩ } else s4.lrx)
  s5.withDlv (if of .dlv then { s5.dlv with range := 0 } else s5.dlv)

/-- The owners, in the order of Table 6-18. -/
def statusOwners : List Config.StatusOwner :=
  [.lctl, .frzu, .path, .jctl, .alr, .mrk, .tbs, .ltx, .cmd, .lrx, .dlv]

/-- The answer of an owner, if it has answered. -/
def StatusReading.answerOf (r : StatusReading) (o : Config.StatusOwner) : Option OwnerAnswer :=
  (r.answers.find? (fun a => decide (a.1 = o))).map Prod.snd

/-- Every owner has answered. -/
def StatusReading.complete (r : StatusReading) : Bool := statusOwners.all fun o => (r.answerOf o).isSome

/-- Those of these owners that have not yet answered answer now, and clear their counters if the command asks for it (R161,
R175). -/
def State.letAnswer (of : Config.StatusOwner → Bool) (r : StatusReading) (s : State) : State :=
  let now := fun o => of o && (r.answerOf o).isNone
  let r1 := { r with answers := r.answers ++ (statusOwners.filter now).map fun o => (o, s.answer o) }
  let s1 := if r.clear then s.clearCounters now else s
  s1.withCmd { s1.cmd with reading := some r1 }

/-- The reply of a GET-STATUS is formed once the last owner has answered (R154, R176). -/
def State.closeReading (s : State) : State :=
  match s.cmd.reading with
  | none   => s
  | some r =>
    if r.complete then
      s.giveReply { tag := r.tag, code := 0x06, result := .ok, data := statusData fun o => (r.answerOf o).getD (s.answer o) }
    else s

/-- The owner can answer: for the path controller, no claim for a request in hand is unanswered, a state between those of
Table 2-3 (R21, R117, log 6). -/
def State.mayAnswer (s : State) (o : Config.StatusOwner) : Bool :=
  match o, s.path.state with
  | .path, .claiming _ _ _ => false
  | _, _                   => true

/-- A moment of the execution of a GET-STATUS: some of the owners that have not yet answered answer; which, is a free value
(R176, log 28). Nothing happens if none is being executed. -/
def State.ownersAnswer (s : State) : State :=
  match s.cmd.reading with
  | none   => s
  | some r =>
    ((s.letAnswer (fun o => s.mayAnswer o && Config.answersNow s.choices o) r).withChoices (s.choices + 1)).closeReading

/-- The next state of a command: after its step comes a moment at which owners may answer a GET-STATUS being executed (R176,
log 28). -/
abbrev nextOf (s : State) : Host.Outcome State Fault Refusal := .next s.ownersAnswer

/-- The execution of a GET-STATUS begins (R155, R161); no owner has answered. -/
def State.beginStatus (tag : Byte) (clear : Bool) (s : State) : State :=
  s.withCmd { s.cmd with reading := some { tag, clear, answers := [], periods := 0 } }

end Sys2Proof.Machine
end

