-- ==== Sys2Proof/Machine/Watch.lean ====
section
/-! DEFINITION. The watch table: classification, hit counts and changes (chapter 1). -/

namespace Sys2Proof.Machine

/-- The entry's kinds admit the request kind (R7, condition 3). -/
def kindAdmitted (k : Kinds) (r : ReqKind) : Bool :=
  match k, r with
  | .both, _        => true
  | .writes, .write => true
  | .reads, .read   => true
  | .writes, .read  => false
  | .reads, .write  => false

/-- The request source and the source value agree in every bit that is set in the mask (R3). -/
def sourceMatches (value mask source : BitVec 4) : Bool := (source &&& mask) == (value &&& mask)

/-- The entry meets the four conditions of R7. -/
def WatchEntry.qualifies (e : WatchEntry) (r : Request) : Bool :=
  e.valid && windowOverlaps e.base e.limit r && kindAdmitted e.kinds r.kind &&
    sourceMatches e.sourceValue e.sourceMask r.source

/-- The governing entry with its index: the one of lowest index that qualifies (R1, R7). -/
def WatchTable.governing (t : WatchTable) (r : Request) : Option (WatchEntry × Nat) :=
  t.entries.toList.zipIdx.find? (fun p => p.1.qualifies r)

/-- The form of the entry that applies to the request's kind (R4). -/
def WatchEntry.formFor (e : WatchEntry) (k : ReqKind) : WriteForm :=
  match k with
  | .write => e.writeForm
  | .read  => match e.readForm with
    | .none    => .none
    | .address => .address

/-- The attributes of a request classified to an entry while the effective freeze state is as given (R9, R10). -/
def WatchEntry.attributes (e : WatchEntry) (index : Nat) (freezeOn : Bool) (r : Request) : Attributes :=
  { entry := BitVec.ofNat 4 index, form := e.formFor r.kind, lossPolicy := e.lossPolicy,
    refused := decide (r.kind = .write) && e.freezable && freezeOn, refusal := e.refusal, closeAfter := e.closeAfter }

/-- The table with one entry replaced. -/
def WatchTable.put (t : WatchTable) (index : Nat) (e : WatchEntry) : WatchTable :=
  { entries := t.entries.setIfInBounds index e }

/-- Classification of a request, with the hit count of the entry it is classified to (R7, R14). -/
def State.classify (r : Request) (s : State) : State × Option Attributes :=
  match s.wtab.governing r with
  | none            => (s, none)
  | some (e, index) =>
    (s.withWtab (s.wtab.put index { e with hitCount := satInc e.hitCount }),
     some (e.attributes index s.frzu.effective r))

/-- SET-ENTRY at the table (R15, R16): the checks in order, then the entry replaced whole. -/
def WatchTable.setEntry (args : List Byte) (t : WatchTable) : WatchTable × Result :=
  let index := (argByte args 0).toNat
  if index > 15 then (t, .badIndex)
  else if rangeGood (argWord args 2) (argWord args 6) then
    match entryOfArgs args with
    | some e => (t.put index e, .ok)
    | none   => (t, .badValue)
  else (t, .badRange)

/-- CLEAR-TABLE at the table (R17): every entry not valid with hit count 0, other fields kept. -/
def WatchTable.clear (t : WatchTable) : WatchTable :=
  { entries := t.entries.map (fun e => { e with valid := false, hitCount := 0 }) }

end Sys2Proof.Machine
end

