-- ==== Sys2Proof/Machine/PathUnit.lean ====
section
/-! DEFINITION. The path controller: REQUEST_TAKEN, DOWNSTREAM_RESPONSE, RESPONSE_ACCEPTED, SPACE_FREED_REPORT,
STALL_TIMER_EXPIRY and the answer to its claim (chapter 2). -/

namespace Sys2Proof.Machine

/-! ### Items and issues -/

/-- The tracking item of a request, in phase WAITING (R24). -/
def itemOf (cls : ItemClass) (r : Request) : Item :=
  { cls, kind := r.kind, source := r.source, address := r.address, beatsLess1 := r.beatsLess1, phase := .waiting }

/-- The before-image read of a write: a READ with its address, beats and source (R30). -/
def beforeImageRead (r : Request) : Request := { r with kind := .read, enables := [], data := [] }

/-- Forwarding (R38): the request is issued unchanged, its item joins the list, the path controller is IDLE. -/
def State.forward (r : Request) (cls : ItemClass) (s : State) : State :=
  s.withPath { s.path with state := .idle, tracking := s.path.tracking ++ [itemOf cls r], issued := s.path.issued ++ [r] }

/-! ### Claims for requests (R33) -/

/-- WRITE data of a record, from the form and the response to the before-image read (R44, R45). -/
def writeData (form : WriteForm) (r : Request) (before : Option Response) : WriteData :=
  match form with
  | .none    => .address
  | .address => .address
  | .after   => .after r.data
  | .both    =>
    match before with
    | some ⟨.okay, image⟩ => .both r.data image
    | some ⟨.error, _⟩    => .bothFailed r.data
    | none                => .bothFailed r.data

/-- The contents of the WRITE or READ record of a captured request (R44, R47). -/
def recordOf (r : Request) (a : Attributes) (before : Option Response) : RecordBody :=
  match r.kind with
  | .write => .write a.entry r.source r.beatsLess1 r.address r.enables (writeData a.form r before)
  | .read  => .read a.entry r.source r.beatsLess1 r.address

/-- The close option of a record claimed for a request: ENTRY when the entry's close-after is yes (R63). -/
def closeOptionOf (a : Attributes) : CloseOption := if a.closeAfter then .entry else .none

/-- The claim for a captured request, under the entry's loss policy (R33). -/
def claimOf (a : Attributes) (body : RecordBody) : Claim := { body, policy := a.lossPolicy, close := closeOptionOf a }

/-- The claim for a captured request is made (R33). It is answered as an event of its own, so that claims of other blocks may
be taken before it (R39, R56; log 6). -/
def State.makeClaim (r : Request) (a : Attributes) (body : RecordBody) (s : State) : State :=
  s.withPath { s.path with state := .claiming r a body }

/-- The claim for a captured request is taken, and what follows its answer (R33, R34): forwarded captured on APPENDED, forwarded
not captured on NO-SPACE under DROP, HOLD with the stall timer started on NO-SPACE under HOLD. -/
def State.claimThenForward (r : Request) (a : Attributes) (body : RecordBody) (s : State) : State :=
  let answered := s.claim (claimOf a body)
  match answered.2, a.lossPolicy with
  | .appended, _    => answered.1.forward r (.forwarded a.entry true)
  | .noSpace, .drop => answered.1.forward r (.forwarded a.entry false)
  | .noSpace, .hold =>
    answered.1.withPath { answered.1.path with state := .hold r a body, stallTimer := some answered.1.path.stallLimit }

/-- The claim for the request in hand is taken and answered, if one has been made (R33). -/
def State.answerClaim (s : State) : State :=
  match s.path.state with
  | .claiming r a body => s.claimThenForward r a body
  | .idle | .waitSlot _ | .preRead _ _ | .hold _ _ _ => s

/-- All claims of the path controller for its requests are taken, in the order in which it took the requests (R56): REFUSED
claims that wait, then that of the request in hand. -/
def State.takePathClaims (s : State) : State := (s.takeClaimsOf (fun w => decide (w = .path))).answerClaim

/-- The path controller has the claim for its request in hand answered, and those before it, if one has been made. When a
GET-STATUS is completed it answers after this: Table 2-3 has no state between the making of a claim and its answer (R21, R117,
R155; log 6). -/
def State.settlePath (s : State) : State :=
  match s.path.state with
  | .claiming _ _ _ => s.takePathClaims
  | .idle | .waitSlot _ | .preRead _ _ | .hold _ _ _ => s

/-- The status a refused write is answered with (R32). -/
def refusalStatus (f : Refuse) : Status :=
  match f with
  | .error  => .error
  | .silent => .okay

/-- A refused write (R32): a LOCAL item, a REFUSED claim under DROP whose outcome is not waited for, the writes refused
counter, IDLE. -/
def State.refuseWrite (r : Request) (a : Attributes) (s : State) : State :=
  let s1 := s.postClaim .path { body := .refused a.entry r.source r.beatsLess1 r.address r.enables, policy := .drop,
                                close := closeOptionOf a }
  s1.withPath { s1.path with
    state := .idle, tracking := s1.path.tracking ++ [itemOf (.local (refusalStatus a.refusal)) r]
    writesRefused := satInc s1.path.writesRefused }

/-- The before-image read is issued with a PRE-READ item, and the path controller enters PRE-READ (R30). -/
def State.startPreRead (r : Request) (a : Attributes) (s : State) : State :=
  let q := beforeImageRead r
  s.withPath { s.path with state := .preRead r a, tracking := s.path.tracking ++ [itemOf .preRead q],
                           issued := s.path.issued ++ [q] }

/-- The handling that Table 2-4 gives, once a place in the tracking list is free (R21). -/
def State.handle (h : InHand) (s : State) : State :=
  match h.attrs with
  | none   => s.forward h.request .unwatched
  | some a =>
    if a.refused then s.refuseWrite h.request a
    else match a.form, h.request.kind with
      | .none, _     => s.forward h.request (.forwarded a.entry false)
      | .both, .write => s.startPreRead h.request a
      | _, _         => s.makeClaim h.request a (recordOf h.request a none)

/-- WAIT-SLOT ends when a place is free, and the handling goes on (R22). -/
def State.endWaitSlot (s : State) : State :=
  match s.path.state with
  | .waitSlot h => if s.path.tracking.length < Config.trackingPlaces then s.handle h else s
  | _           => s

/-! ### Responses (R25 to R31, R39) -/

/-- A response with the tracking list empty is unmatched: discarded and counted (R28). -/
def State.unmatched (s : State) : State :=
  s.withPath { s.path with unmatchedResponses := satInc s.path.unmatchedResponses }

/-- The FAILED claim, alert and count of an ERROR response to a captured write (R39). -/
def State.reportFailed (it : Item) (entry : BitVec 4) (s : State) : State :=
  let s1 := s.postClaim .failed { body := .failed entry it.source it.beatsLess1 it.address, policy := .drop, close := .none }
  (s1.setAlert failedFlag).withPath { s1.path with writeFailures := satInc s1.path.writeFailures }

/-- A response taken for a FORWARDED head (R27, R39): the item answers upstream, unchanged. -/
def State.takeForwarded (r : Response) (it : Item) (rest : List Item) (s : State) : State :=
  let s1 := s.withPath { s.path with tracking := { it with phase := .answering r } :: rest, issued := s.path.issued.drop 1 }
  match it.cls, it.kind, r.status with
  | .forwarded entry true, .write, .error => s1.reportFailed it entry
  | _, _, _                               => s1

/-- A response taken for the PRE-READ head (R31): consumed, the item removed, the WRITE record claimed. -/
def State.takePreRead (r : Response) (rest : List Item) (s : State) : State :=
  let s1 := s.withPath { s.path with tracking := rest, issued := s.path.issued.drop 1 }
  match s1.path.state with
  | .preRead req a => s1.makeClaim req a (recordOf req a (some r))
  | _              => s1

/-- A LOCAL head in phase WAITING passes to ANSWERING, with a write response of its local status (R24, R26). -/
def answerLocal (l : List Item) : List Item :=
  match l with
  | []         => []
  | it :: rest =>
    match it.cls, it.phase with
    | .local st, .waiting => { it with phase := .answering ⟨st, []⟩ } :: rest
    | _, _                => it :: rest

/-- What Table 2-6 does with a response at the head of the tracking list. -/
inductive HeadAction where
  | unmatched
  | forwarded (it : Item) (rest : List Item)
  | preRead (rest : List Item)
  | heldBack

/-- The head's action on a response (Table 2-6, R25). -/
def headAction (l : List Item) : HeadAction :=
  match l with
  | []         => .unmatched
  | it :: rest =>
    match it.phase, it.cls with
    | .answering _, _         => .heldBack
    | .waiting, .local _      => .heldBack
    | .waiting, .preRead      => .preRead rest
    | .waiting, .unwatched    => .forwarded it rest
    | .waiting, .forwarded _ _ => .forwarded it rest

/-- The responses at the downstream port are taken in order as long as the head of the tracking list takes them, and the
others stay held back; a LOCAL head answers (R25 to R28). DESIGN CHOICE (log 29): a response held behind the response to a
before-image read is unmatched, since the list is empty from the removal of the PRE-READ item until the claim for its write
has been answered (R28, R31, R38). -/
def State.takeResponses : List Response → State → State
  | [], s        => s.withPath { s.path with tracking := answerLocal s.path.tracking, held := [] }
  | r :: more, s =>
    match headAction s.path.tracking with
    | .unmatched         => State.takeResponses more s.unmatched
    | .preRead rest      => State.takeResponses more (s.takePreRead r rest)
    | .forwarded it rest => (s.takeForwarded r it rest).withPath
                              { (s.takeForwarded r it rest).path with held := more }
    | .heldBack          => s.withPath { s.path with tracking := answerLocal s.path.tracking, held := r :: more }

/-- The head of the list is evaluated against the responses held at the downstream port (R26, R29). -/
def State.evaluateHead (s : State) : State := State.takeResponses s.path.held s

/-! ### The commands -/

/-- Taking a request (R21): classified, then WAIT-SLOT when the list is full, or handled at once. -/
def State.takeRequest (r : Request) (s : State) : State :=
  let classified := s.classify r
  let h : InHand := { request := r, attrs := classified.2 }
  if classified.1.path.tracking.length ≥ Config.trackingPlaces then
    classified.1.withPath { classified.1.path with state := .waitSlot h }
  else (classified.1.handle h).evaluateHead

/-- REQUEST_TAKEN (R21). Outside IDLE no request is taken, and it stays at the upstream port (log 13). -/
def execRequestTaken (r : Request) (s : State) : Host.Outcome State Fault Refusal :=
  match s.path.state with
  | .idle => nextOf (s.takeRequest r)
  | _     => nextOf s

/-- DOWNSTREAM_RESPONSE (R25, R28, R31): the response joins those held at the port, and the head is evaluated. -/
def execDownstreamResponse (r : Response) (s : State) : Host.Outcome State Fault Refusal :=
  nextOf (State.takeResponses (s.path.held ++ [r]) s).endWaitSlot.evaluateHead

/-- The offered response is accepted (R29): the head item is removed, the new head is evaluated, WAIT-SLOT ends. -/
def State.acceptResponse (rest : List Item) (s : State) : State :=
  (s.withPath { s.path with tracking := rest }).evaluateHead.endWaitSlot.evaluateHead

/-- RESPONSE_ACCEPTED (R29). With no response offered there is nothing to accept (Table 2-6, log 13). -/
def execResponseAccepted (s : State) : Host.Outcome State Fault Refusal :=
  match s.path.tracking with
  | it :: rest =>
    match it.phase with
    | .answering _ => nextOf (s.acceptResponse rest)
    | .waiting     => nextOf s
  | [] => nextOf s

/-- The claim of the request in HOLD is repeated (R35). -/
def State.repeatClaim (s : State) : State :=
  match s.path.state with
  | .hold r a body =>
    let answered := s.claim (claimOf a body)
    match answered.2 with
    | .appended =>
      ((answered.1.withPath { answered.1.path with stallTimer := none }).forward r (.forwarded a.entry true)).evaluateHead
    | .noSpace  => answered.1
  | _ => s

/-- SPACE_FREED_REPORT (R35): the path controller takes a report that waits; in HOLD it repeats its claim. -/
def execSpaceFreedReport (s : State) : Host.Outcome State Fault Refusal :=
  if s.wires.spaceFreed = 0 then nextOf s
  else nextOf (s.withWires { s.wires with spaceFreed := s.wires.spaceFreed - 1 }).repeatClaim

/-- The stall timer's expiry in HOLD (R36): the record is lost, STALL is set and counted, the request is forwarded not
captured. Out of HOLD it has no effect (R35). -/
def State.stallExpired (s : State) : State :=
  let s1 := s.withPath { s.path with stallTimer := none }
  match s1.path.state with
  | .hold r a _ =>
    let s2 := s1.lostRecordReport.setAlert stallFlag
    ((s2.withPath { s2.path with stallExpiries := satInc s2.path.stallExpiries }).forward r
      (.forwarded a.entry false)).evaluateHead
  | _ => s1

/-- STALL_TIMER_EXPIRY (R36): taken when the stall timer's expiry is due (log 7). -/
def execStallTimerExpiry (s : State) : Host.Outcome State Fault Refusal :=
  if expiryDue s.path.stallTimer then nextOf s.stallExpired else nextOf s

end Sys2Proof.Machine
end

