-- ==== Sys2Proof/Machine/Line.lean ====
section
/-! DEFINITION. Bytes on the line: the check value (R106) and escaping (R102). -/

namespace Sys2Proof.Machine

/-- One shift of the check register (R106, point 3). -/
def checkShift (c : BitVec 16) : BitVec 16 := if c.msb then (c <<< 1) ^^^ 0x1021 else c <<< 1

/-- The check register shifted once for each of the eight bits of a byte (R106, point 3). -/
def checkShift8 (c : BitVec 16) : BitVec 16 :=
  checkShift (checkShift (checkShift (checkShift (checkShift (checkShift (checkShift (checkShift c)))))))

/-- The check register after one more body byte, combined into its upper eight bits (R106, points 2 and 3). -/
def checkByte (c : BitVec 16) (b : Byte) : BitVec 16 := checkShift8 (c ^^^ (b ++ (0 : BitVec 8)))

/-- The check value of a run of body bytes (R106). -/
def checkValue (bytes : List Byte) : BitVec 16 := bytes.foldl checkByte 0xFFFF

/-- The byte is reserved on the line (R102). -/
def isReserved (b : Byte) : Bool := b == Config.delimiter || b == Config.escape

/-- The second byte of the escaped pair of a reserved byte (R102). -/
def escapedSecond (b : Byte) : Byte := if b = Config.delimiter then Config.escapedDelimiter else Config.escapedEscape

/-- The body byte that the byte after an escape stands for: C3h for D3h, CCh for DCh, none for any other (R102). -/
def unescaped (b : Byte) : Option Byte :=
  if b = Config.escapedDelimiter then some Config.delimiter
  else if b = Config.escapedEscape then some Config.escape
  else none

/-- A body with its check value, high byte first (R106). -/
def withCheck (bytes : List Byte) : List Byte := bytes ++ be16 (checkValue bytes)

/-- A body as it appears on the line, before its closing delimiter (R102). -/
def escapeBody (bytes : List Byte) : List Byte :=
  bytes.flatMap (fun b => if isReserved b then [Config.escape, escapedSecond b] else [b])

end Sys2Proof.Machine
end

