-- ==== Sys2Proof/Machine/Uplink.lean ====
section
/-! DEFINITION. The link transmitter: FRAME_BOUNDARY, SEND_END, and the bytes it puts on the uplink (R102 to R105, R113,
R122, R132 to R136). -/

namespace Sys2Proof.Machine

/-! ### Starting a body -/

/-- A body is started at a frame boundary: no byte of it is sent yet and the check value starts at FFFFh (R104, R106). -/
def LinkTransmitter.start (kind : TxKind) (bytes : List Byte) (x : LinkTransmitter) : LinkTransmitter :=
  { x with body := some ⟨kind, bytes⟩, bytesSent := 0, escapeSent := false, check := 0xFFFF }

/-- The byte of the byte time that has begun is put on the uplink (R103, R104). -/
def LinkTransmitter.put (b : Byte) (x : LinkTransmitter) : LinkTransmitter :=
  { x with lastByte := some b, byteDue := false }

/-- Fill (R104): one delimiter in the byte time that has begun; while a byte is still being sent there is none to put. -/
def LinkTransmitter.fill (x : LinkTransmitter) : LinkTransmitter := if x.byteDue then x.put Config.delimiter else x

/-- The body in progress ends with its closing delimiter (R104). DESIGN CHOICE (log 27): the bytes sent and the check value
go back to 0 and FFFFh at the end of a body; Table 6-2 gives them after cold reset, R104 and R106 at the start of a body. -/
def LinkTransmitter.closeBody (x : LinkTransmitter) : LinkTransmitter :=
  { x with body := none, bytesSent := 0, escapeSent := false, check := 0xFFFF }.put Config.delimiter

/-- A JOURNAL body is in progress. -/
def LinkTransmitter.inJournal (x : LinkTransmitter) : Bool :=
  match x.body with
  | some ⟨.journal _, _⟩ => true
  | _                    => false

/-- The transmitter stands at a frame boundary: no body is in progress and no byte of an abort is left to send (R104,
R105). -/
def LinkTransmitter.atBoundary (x : LinkTransmitter) : Bool := x.body.isNone && x.abortBytes.isEmpty

/-- A reply leaves the head of the queue and its REPLY body is started (R133). -/
def State.startReply (r : Reply) (rest : List Reply) (s : State) : State :=
  (s.withCmd { s.cmd with replies := rest }).withLtx (s.ltx.start .reply (replyBody r))

/-- An uplink HELLO is started from the journal controller's state at this moment, and the mark is cleared (R113, R122). -/
def State.startHello (s : State) : State :=
  s.withLtx { s.ltx.start .hello (helloBody s.jctl.epoch s.jctl.oldestHeld s.jctl.nextSeq s.jctl.framesHeld) with
              helloPending := false }

/-- The oldest CLOSED frame, with the frame list in which it is SENDING (R76). -/
def takeOldestClosed : List Frame → Option (Frame × List Frame)
  | []      => none
  | f :: fs =>
    if f.state = .closed then some (f, { f with state := .sending } :: fs)
    else match takeOldestClosed fs with
      | some (g, gs) => some (g, f :: gs)
      | none         => none

/-- The transmitter starts the oldest CLOSED frame (R135): SENDING, its JOURNAL body, and the retransmission flag and
count when it was sent before. -/
def State.startJournal (f : Frame) (frames : List Frame) (s : State) : State :=
  let x := s.ltx.start (.journal f.seq) (journalBody f s.jctl.epoch)
  (s.withJctl { s.jctl with frames := frames }).withLtx
    { x with retransmitted := if f.sentBefore then satInc x.retransmitted else x.retransmitted }

/-- The arbiter may start a journal frame (R132, point 2), but for a CLOSED frame being held. -/
def State.windowOpen (s : State) : Bool :=
  s.dlv.deliveryOpen && s.jctl.sendingSeq.isNone && decide (s.jctl.framesOut < s.dlv.sendWindow)

/-- The uplink arbiter (R132): a reply, else the oldest CLOSED frame, else one fill delimiter. -/
def State.arbitrate (s : State) : State :=
  match s.cmd.replies with
  | r :: rest => s.startReply r rest
  | []        =>
    match s.windowOpen, takeOldestClosed s.jctl.frames with
    | true, some (f, frames) => s.startJournal f frames
    | _, _                   => s.withLtx s.ltx.fill

/-! ### The end of a journal frame (R76, R136) -/

/-- A frame after a send end: the SENDING frame becomes SENT with sent-before yes (R76). -/
def sentFrame (f : Frame) : Frame :=
  match f.state with
  | .sending => { f with state := .sent, sentBefore := true }
  | .closed  => f
  | .sent    => f

/-- The delivery controller takes a send-end report (R136): the acknowledgment timer starts if it is stopped and a SENT
frame is held. -/
def State.sendEndReport (s : State) : State :=
  match s.dlv.ackTimer with
  | some _ => s
  | none   => if s.jctl.framesSent = 0 then s else s.withDlv { s.dlv with ackTimer := some s.dlv.ackTimeout }

/-- The delivery controller takes a send-end report that waits (R136). -/
def State.takeSendReport (s : State) : State :=
  if s.wires.sendReport then (s.withWires { s.wires with sendReport := false }).sendEndReport else s

/-- The journal controller takes a send end that waits (R76): the SENDING frame becomes SENT and a send-end report follows;
with no frame SENDING it changes nothing and no report follows (R144). -/
def State.takeSendEnd (s : State) : State :=
  if s.wires.sendEnd then
    match s.jctl.sendingSeq with
    | none   => s.withWires { s.wires with sendEnd := false }
    | some _ => (s.withJctl { s.jctl with frames := s.jctl.frames.map sentFrame }).withWires
                  { s.wires with sendEnd := false, sendReport := true }
  else s

/-- A send end and a send-end report that wait are taken (R76, R136). -/
def State.finishSendEnd (s : State) : State := s.takeSendEnd.takeSendReport

/-! ### The choice at a frame boundary -/

/-- The choice at a frame boundary: fill in DOWN, HELLO or fill in TRAINING (R122), the arbiter in UP (R104, R132). The
journal controller takes a send end of the transmitter before its next send start (log 12). -/
def State.chooseBody (s : State) : State :=
  let s1 := s.takeSendEnd
  match s1.lctl.link with
  | .down     => s1.withLtx s1.ltx.fill
  | .training => if s1.ltx.helloPending then s1.startHello else s1.withLtx s1.ltx.fill
  | .up       => s1.arbitrate

/-- FRAME_BOUNDARY (R132): the choice. In the middle of a body or of an abort there is no frame boundary (log 11). -/
def execFrameBoundary (s : State) : Host.Outcome State Fault Refusal :=
  if s.ltx.atBoundary then nextOf s.chooseBody else nextOf s

/-! ### Bytes of a body -/

/-- A byte of the body has been sent whole (R102, R106): the count rises, and a byte before the check value enters it. -/
def LinkTransmitter.countByte (b : Byte) (inCheck : Bool) (x : LinkTransmitter) : LinkTransmitter :=
  { x with bytesSent := x.bytesSent + 1, escapeSent := false, check := if inCheck then checkByte x.check b else x.check }

/-- The byte of the body that is next to be sent: a byte up to the check value, then the high and the low byte of the check
value (R106); none when all have been sent. The flag tells whether the byte enters the check value. -/
def LinkTransmitter.nextBodyByte (b : TxBody) (x : LinkTransmitter) : Option (Byte × Bool) :=
  match b.bytes[x.bytesSent]? with
  | some v => some (v, true)
  | none   =>
    if x.bytesSent = b.bytes.length then some (x.check.extractLsb' 8 8, false)
    else if x.bytesSent = b.bytes.length + 1 then some (x.check.extractLsb' 0 8, false)
    else none

/-- The last byte of the check value has been sent: the closing delimiter is the next byte (R104, R106). -/
def LinkTransmitter.allSent (x : LinkTransmitter) : Bool :=
  match x.body with
  | some b => (x.nextBodyByte b).isNone
  | none   => false

/-- The next byte of the body in progress is put on the uplink, a reserved one as an escaped pair in two byte times (R102,
R106). -/
def LinkTransmitter.sendBodyByte (x : LinkTransmitter) : LinkTransmitter :=
  match x.body.bind x.nextBodyByte with
  | none              => x
  | some (v, inCheck) =>
    if x.escapeSent then (x.countByte v inCheck).put (escapedSecond v)
    else if isReserved v then { x with escapeSent := true }.put Config.escape
    else (x.countByte v inCheck).put v

/-- The closing delimiter of the body in progress is sent; for a JOURNAL body the transmitter makes a send end, which waits
for the journal controller (R104, R136, R144). -/
def State.endBody (s : State) : State :=
  let s1 := s.withLtx s.ltx.closeBody
  if s.ltx.inJournal then s1.withWires { s1.wires with sendEnd := true } else s1

/-- SEND_END (R136): a send end or a send-end report that waits is taken; with none, the closing delimiter of the JOURNAL
body in progress is sent and its send end taken whole. The delimiter is due once the whole body has been sent and a byte
time has begun; before that the row has no effect (log 12). -/
def execSendEnd (s : State) : Host.Outcome State Fault Refusal :=
  if s.wires.sendEnd || s.wires.sendReport then nextOf s.finishSendEnd
  else if s.ltx.byteDue && s.ltx.inJournal && s.ltx.allSent then nextOf s.endBody.finishSendEnd
  else nextOf s

/-! ### Byte times -/

/-- The byte of the body in progress, if there is one: its next byte, or its closing delimiter (R104). -/
def State.sendByte (s : State) : State :=
  if s.ltx.allSent then s.endBody else s.withLtx s.ltx.sendBodyByte

/-- One byte time of the uplink (R102, R104, R105): a byte of an abort, or a byte of the body in progress; at a frame
boundary the choice is made, and fill or the first byte of the body chosen is sent. -/
def State.byteTime (s : State) : State :=
  match s.ltx.abortBytes with
  | b :: rest => s.withLtx ({ s.ltx with abortBytes := rest }.put b)
  | []        => if s.ltx.body.isNone then s.chooseBody.sendByte else s.sendByte

end Sys2Proof.Machine
end

