-- ==== Sys2Proof/Machine/LinkChange.lean ====
section
/-! DEFINITION. The entry to DOWN at each block that depends on the link state: every block takes it as an event of its own
(R118, R127, R146; log 22). -/

namespace Sys2Proof.Machine

/-- The link receiver takes an entry to DOWN that waits for it (R107, R119, R127): it decodes no more, and the settle count is
0. Until then it goes on decoding, and a body that ends is judged against the DOWN of the link controller (R109). -/
def State.lrxTakesDown (s : State) : State :=
  if s.wires.falling.lrx then
    (s.withLrx { s.lrx with rx := .notDecoding, settleCount := 0 }).withWires
      { s.wires with falling := { s.wires.falling with lrx := false } }
  else s

/-- The link transmitter takes an entry to DOWN that waits for it (R105, R122, R127): it aborts a body in progress, and no
HELLO is pending. Until then the body in progress goes on, and may come to its closing delimiter. -/
def State.ltxTakesDown (s : State) : State :=
  if s.wires.falling.ltx then
    (s.withLtx { s.ltx.abortBody with helloPending := false }).withWires
      { s.wires with falling := { s.wires.falling with ltx := false } }
  else s

/-- The delivery controller takes an entry to DOWN that waits for it (R127, R146): delivery is not open, the acknowledgment
timer stops, and every frame out returns to CLOSED. The transmitter has taken the entry before it and a send end comes before
the return, so a frame whose closing delimiter has been sent has reached SENT (R127). -/
def State.dlvTakesDown (s : State) : State :=
  if s.wires.falling.dlv then
    let s1 := s.ltxTakesDown.finishSendEnd
    ((s1.withDlv { s1.dlv with deliveryOpen := false, ackTimer := none }).withJctl s1.jctl.returnToClosed).withWires
      { s1.wires with falling := { s1.wires.falling with dlv := false } }
  else s

/-- The command unit takes an entry to DOWN that waits for it (R127, R150): it empties the reply queue. The reply of a
GET-STATUS being executed is then stored and not queued (R155). -/
def State.cmdTakesDown (s : State) : State :=
  if s.wires.falling.cmd then
    (s.withCmd { s.cmd with replies := [] }).withWires { s.wires with falling := { s.wires.falling with cmd := false } }
  else s

/-- The alert unit takes an entry to DOWN from UP that waits for it (R127): LINK is set. -/
def State.alrTakesDown (s : State) : State :=
  if s.wires.falling.alr then
    (s.setAlert linkFlag).withWires { s.wires with falling := { s.wires.falling with alr := false } }
  else s

/-- These of the blocks that have not yet taken the entry to DOWN take it. -/
def State.takeDownBy (of : Config.LinkBlock → Bool) (s : State) : State :=
  let s1 := if of .ltx then s.ltxTakesDown else s
  let s2 := if of .dlv then s1.dlvTakesDown else s1
  let s3 := if of .lrx then s2.lrxTakesDown else s2
  let s4 := if of .cmd then s3.cmdTakesDown else s3
  if of .alr then s4.alrTakesDown else s4

/-- All blocks that have not yet taken the entry to DOWN take it. -/
def State.takeDown (s : State) : State := s.takeDownBy fun _ => true

end Sys2Proof.Machine
end

