-- ==== Sys2Proof/Machine/DeliveryUnit.lean ====
section
/-! DEFINITION. The delivery controller: ACK, NAK, a recorder HELLO's number, the entry to UP, and ACK_TIMER_EXPIRY
(chapter 8). -/

namespace Sys2Proof.Machine

/-- A number out of range is counted (R137). -/
def State.countRange (s : State) : State := s.withDlv { s.dlv with range := satInc s.dlv.range }

/-- The acknowledgment timer after an ACK that removed a frame (R138, points 2 and 3). -/
def State.restartAckTimer (s : State) : State :=
  s.withDlv { s.dlv with ackTimer := if s.jctl.framesSent = 0 then none else some s.dlv.ackTimeout }

/-- The number of an ACK at the delivery controller (R137, R138). -/
def State.takeAckNumber (n : Seq) (s : State) : State :=
  if s.jctl.inRange n then
    if s.jctl.named n = 0 then s else (s.removeBefore n).restartAckTimer
  else s.countRange

/-- What a NAK or HELLO with a valid number does (R139, R140): removal, then everything out is taken back. -/
def State.removeAndTakeBack (n : Seq) (s : State) : State := (s.removeBefore n).takeBack

/-- The number of a NAK at the delivery controller (R137, R139). -/
def State.takeNakNumber (n : Seq) (s : State) : State :=
  if s.jctl.inRange n then s.removeAndTakeBack n else s.countRange

/-- A recorder HELLO at the delivery controller (R140): in range as a NAK; out of range nothing is removed, everything out
is taken back and RANGE is counted. -/
def State.takeHelloNumber (e : Seq) (s : State) : State :=
  if s.jctl.inRange e then s.removeAndTakeBack e else s.takeBack.countRange

/-- The delivery-open mark is set once the HELLO of the entry to UP has been processed (R145). -/
def State.openDelivery (s : State) : State := s.withDlv { s.dlv with deliveryOpen := true }

/-- The delivery controller takes an entry to UP that waits for it, together with its HELLO (R145, log 22). -/
def State.takeUp (s : State) : State :=
  match s.wires.upHello with
  | some e => ((s.withWires { s.wires with upHello := none }).takeHelloNumber e).openDelivery
  | none   => s

/-- The delivery controller takes a change of the link state that waits for it: before any ACK, NAK or HELLO handed on after
it, so that one taken in DOWN finds no SENT frame (R123, R141, R145). -/
def State.dlvTakesLink (s : State) : State := s.takeUp.dlvTakesDown

/-- An ACK at the delivery controller (R138, R141). -/
def State.takeAck (n : Seq) (s : State) : State := s.dlvTakesLink.takeAckNumber n

/-- A NAK at the delivery controller (R139, R141). -/
def State.takeNak (n : Seq) (s : State) : State := s.dlvTakesLink.takeNakNumber n

/-- ACK (R138). -/
def execAck (n : Seq) (s : State) : Host.Outcome State Fault Refusal := nextOf (s.takeHanded (.ack n) (State.takeAck n))

/-- NAK (R139). -/
def execNak (n : Seq) (s : State) : Host.Outcome State Fault Refusal := nextOf (s.takeHanded (.nak n) (State.takeNak n))

/-- The retry increment of the oldest held frame (R78): the journal controller after it, and the value returned, which is
0 when no frame is held or the oldest is not SENT, and 16 when the count was already 15. -/
def Journal.retryIncrement (j : Journal) : Journal × Nat :=
  match j.frames with
  | []      => (j, 0)
  | f :: fs =>
    if f.state = .sent then
      if f.retryCount < 15 then ({ j with frames := { f with retryCount := f.retryCount + 1 } :: fs }, f.retryCount + 1)
      else (j, 16)
    else (j, 0)

/-- A retry-limit report to the link controller (R143); it waits until RETRY_LIMIT_REPORT takes it. -/
def State.sendRetryReport (s : State) : State :=
  s.withWires { s.wires with retryReports := s.wires.retryReports + 1 }

/-- The acknowledgment timer's expiry (R142). -/
def State.ackExpired (s : State) : State :=
  let s1 := s.withDlv { s.dlv with ackTimer := none }
  let raised := s1.jctl.retryIncrement
  let s2 := s1.withJctl raised.1
  if raised.2 = 0 then s2
  else if raised.2 ≤ s2.dlv.retryLimit then s2.takeBack
  else s2.sendRetryReport

/-- ACK_TIMER_EXPIRY (R142): taken when the acknowledgment timer's expiry is due (log 7). -/
def execAckTimerExpiry (s : State) : Host.Outcome State Fault Refusal :=
  if expiryDue s.dlv.ackTimer then nextOf s.ackExpired else nextOf s

end Sys2Proof.Machine
end

