-- ==== Sys2Proof/Machine/StatusEnd.lean ====
section
/-! DEFINITION. The end of the execution of a GET-STATUS (R155, R176). -/

namespace Sys2Proof.Machine

/-- The execution of a GET-STATUS is completed: the owners that have not answered answer now, the path controller once the claim
for a request in hand has been answered, and the reply is formed (R155, R161, R176; log 6). Nothing happens if none is being
executed. -/
def State.finishStatus (s : State) : State :=
  match s.cmd.reading with
  | none   => s
  | some r =>
    let s1 := if (r.answerOf .path).isNone then s.settlePath else s
    (s1.letAnswer (fun _ => true) r).closeReading

/-- One CLK period of the execution of a GET-STATUS has gone by: with the last of 2 byte times it is completed (R155), and
otherwise owners may answer (R176). -/
def State.statusPeriod (s : State) : State :=
  match s.cmd.reading with
  | none   => s
  | some r =>
    if r.periods + 1 < Config.commandPeriods then
      (s.withCmd { s.cmd with reading := some { r with periods := r.periods + 1 } }).ownersAnswer
    else s.finishStatus

end Sys2Proof.Machine
end

