-- ==== Sys2Proof/Machine/LinkUnit.lean ====
section
/-! DEFINITION. The link controller: SILENCE_TIMER_EXPIRY, HELLO_TIMER_EXPIRY, RETRY_LIMIT_REPORT and RECORDER_HELLO, with
the entries to DOWN, TRAINING and UP (chapter 7). -/

namespace Sys2Proof.Machine

/-- The silence timer is started again with the value of SILENCE-LIMIT now held (R123). -/
def State.restartSilence (s : State) : State :=
  s.withLctl { s.lctl with silenceTimer := some s.lctl.silenceLimit }

/-- A frame-received report (R123): it restarts the silence timer in TRAINING and UP and has no effect in DOWN. -/
def State.frameReceived (s : State) : State :=
  match s.lctl.link with
  | .down     => s
  | .training => s.restartSilence
  | .up       => s.restartSilence

/-- The link controller takes a frame-received report that waits (R123). -/
def State.takeFrameReport (s : State) : State :=
  if s.wires.frameReport then (s.withWires { s.wires with frameReport := false }).frameReceived else s

/-- The entry to TRAINING (R121): both timers start, a HELLO is requested, the receiver stands in BETWEEN. Before it, a
frame-received report that waits is taken, in DOWN and so without effect (R123, log 10), every block has taken the entry to
DOWN, and a GET-STATUS begun in UP has ended (log 22, log 28). A body that waited has been taken before, in DOWN: by the byte that
completes the settle count (`execDownlinkByte`), or as the SET-PARAM with which the link settles (R120, R123, log 9). -/
def State.enterTraining (s : State) : State :=
  let s1 := s.takeFrameReport.finishStatus.takeDown
  ((s1.withLctl { s1.lctl with link := .training, silenceTimer := some s1.lctl.silenceLimit,
                               helloTimer := some s1.lctl.helloInterval }).withLtx
    { s1.ltx with helloPending := true }).withLrx { s1.lrx with rx := .between }

/-- A settle report (R119, R121): it moves the link from DOWN to TRAINING. -/
def State.settleReport (s : State) : State :=
  match s.lctl.link with
  | .down     => s.enterTraining
  | .training => s
  | .up       => s

/-- The link controller enters DOWN and hands the change to the other blocks (R127): the timers stop. An entry to UP comes to
the delivery controller before it. In TRAINING the command unit takes no command and no LINK alert follows, so from there the
reply queue is emptied in the same step and the alert unit gets no change. -/
def State.handDown (s : State) : State :=
  let s1 := s.takeUp
  let s2 := s1.withLctl { s1.lctl with link := .down, silenceTimer := none, helloTimer := none }
  match s.lctl.link with
  | .up       => s2.withWires { s2.wires with falling := { lrx := true, ltx := true, dlv := true, cmd := true, alr := true } }
  | .training | .down =>
    (s2.withCmd { s2.cmd with replies := [] }).withWires
      { s2.wires with falling := { lrx := true, ltx := true, dlv := true, cmd := false, alr := false } }

/-- Entering DOWN from TRAINING or UP (R127, R146). Each block takes the change as an event of its own (R118): in this step, or
later, by a free value (log 22). -/
def State.enterDown (s : State) : State :=
  (s.handDown.takeDownBy fun b => !Config.takesLate s.choices b).withChoices (s.choices + 1)

/-- The silence timer's expiry (R123): in TRAINING and UP the link enters DOWN. In DOWN the timer is stopped. -/
def State.silenceExpired (s : State) : State :=
  match s.lctl.link with
  | .down     => s.withLctl { s.lctl with silenceTimer := none }
  | .training => s.enterDown
  | .up       => s.enterDown

/-- SILENCE_TIMER_EXPIRY (R123): taken when the silence timer's expiry is due (log 7). -/
def execSilenceTimerExpiry (s : State) : Host.Outcome State Fault Refusal :=
  if expiryDue s.lctl.silenceTimer then nextOf s.silenceExpired else nextOf s

/-- The hello timer's expiry (R122): in TRAINING a HELLO request and a new start; elsewhere the timer is stopped. -/
def State.helloExpired (s : State) : State :=
  match s.lctl.link with
  | .training => (s.withLctl { s.lctl with helloTimer := some s.lctl.helloInterval }).withLtx
                   { s.ltx with helloPending := true }
  | .down     => s.withLctl { s.lctl with helloTimer := none }
  | .up       => s.withLctl { s.lctl with helloTimer := none }

/-- HELLO_TIMER_EXPIRY (R122): taken when the hello timer's expiry is due (log 7). -/
def execHelloTimerExpiry (s : State) : Host.Outcome State Fault Refusal :=
  if expiryDue s.lctl.helloTimer then nextOf s.helloExpired else nextOf s

/-- A retry-limit report at the link controller (R126): in UP the link enters DOWN, elsewhere it is ignored. -/
def State.retryLimitReached (s : State) : State :=
  match s.lctl.link with
  | .up       => s.enterDown
  | .training => s
  | .down     => s

/-- RETRY_LIMIT_REPORT (R126): the link controller takes a report that waits. DESIGN CHOICE (log 8): R126 gives no bound for
the wait, and a report may wait without end, through DOWN and TRAINING; one that is then taken in a later UP moves that UP to
DOWN. -/
def execRetryLimitReport (s : State) : Host.Outcome State Fault Refusal :=
  if s.wires.retryReports = 0 then nextOf s
  else nextOf (s.withWires { s.wires with retryReports := s.wires.retryReports - 1 }).retryLimitReached

/-- A frame with its retry count set to 0 (R78). -/
def freshFrame (f : Frame) : Frame := { f with retryCount := 0 }

/-- The move from TRAINING to UP (R125): the hello timer stops, HELLO-pending becomes no, every retry count 0. -/
def State.enterUp (s : State) : State :=
  ((s.withLctl { s.lctl with link := .up, helloTimer := none }).withLtx { s.ltx with helloPending := false }).withJctl
    { s.jctl with frames := s.jctl.frames.map freshFrame }

/-- The entry to UP is handed to the delivery controller with its HELLO (R125, R145), which takes the two as one event: in this
step, or later, by a free value (R118, log 22). -/
def State.handUp (e : Seq) (s : State) : State :=
  let s1 := s.withWires { s.wires with upHello := some e }
  (if Config.takesLate s.choices .dlv then s1 else s1.takeUp).withChoices (s.choices + 1)

/-- A recorder HELLO with its frame-received report, taken as one event (R124), after the report of an earlier body that
waits (R110). -/
def State.takeHello (e : Seq) (s : State) : State :=
  let s1 := s.takeFrameReport
  match s1.lctl.link with
  | .down     => s1
  | .training => s1.restartSilence.enterUp.handUp e
  | .up       => s1.restartSilence.takeUp.takeHelloNumber e

/-- RECORDER_HELLO (R124). -/
def execRecorderHello (e : Seq) (s : State) : Host.Outcome State Fault Refusal :=
  nextOf (s.takeHanded (.hello e) (State.takeHello e))

end Sys2Proof.Machine
end

