-- ==== Sys2Proof/Machine/Clock.lean ====
section
/-! DEFINITION. COLD_RESET, TICK and the passing of CLK periods (chapter 5; R103, R104). -/

namespace Sys2Proof.Machine

/-! ### Cold reset -/

/-- COLD_RESET (R18, R40, R83, R88, R92, R101, R107, R129, R131, R149, R171): every block as after cold reset, with the pin
levels at the rise of RESET_N. The queue of commands and the number of choices drawn are the model's own and stay. -/
def execColdReset (p : Pins) (s : State) : Host.Outcome State Fault Refusal :=
  .next (((State.afterReset p).withPending s.pending).withChoices s.choices)

/-! ### Input filters (R89 to R91) -/

/-- One sample at a filter of the given filter time: the filter afterwards, and the edge it hands on, `some true` for a
rising one (R90, R91). -/
def filterSample (time : Nat) (sample : Bool) (f : Filter) : Filter × Option Bool :=
  if sample = f.level then ({ f with disagreement := 0 }, none)
  else if f.disagreement + 1 ≥ time then ({ level := sample, disagreement := 0 }, some sample)
  else ({ f with disagreement := f.disagreement + 1 }, none)

/-! ### Markers (R93 to R95) -/

/-- The marker's mode selects the edge: bit 0 rising, bit 1 falling (Table 5-7). -/
def markerSelects (v : BitVec 3) (rising : Bool) : Bool := if rising then v.getLsbD 0 else v.getLsbD 1

/-- The marker's close option: bit 2 (Table 5-7). -/
def markerCloses (v : BitVec 3) : Bool := v.getLsbD 2

/-- The claim for a selected edge (R94): origin the pin, code 1 rising or 2 falling, under DROP. -/
def edgeClaim (pin : MarkPin) (rising : Bool) (v : BitVec 3) : Claim :=
  { body := .mark (.pin pin) (if rising then 1 else 2), policy := .drop,
    close := if markerCloses v then .mark else .none }

/-- The marker unit takes an edge (R94): a claim if the mode selects it, nothing otherwise. -/
def State.takeEdge (pin : MarkPin) (rising : Bool) (s : State) : State :=
  let v := s.mrk.markers.get pin
  if markerSelects v rising then s.postClaim (.marker pin) (edgeClaim pin rising v) else s

/-- The marker unit meets a new FILTER-CODE together with a tick, or the freeze unit does (R91). -/
def State.codeChanging (s : State) : Bool :=
  decide (s.mrk.codeInUse ≠ s.mrk.filterCode) || decide (s.frzu.codeInUse ≠ s.frzu.filterCode)

/-- The FILTER-CODE of a sample at a unit: the one it holds, or, when it takes the tick before a new one, the old (R91). -/
def codeAtTick (tickFirst : Bool) (inUse held : Nat) : Nat :=
  if inUse = held then held else if tickFirst then inUse else held

/-- The FILTER-CODE of the marker filters at a tick; which of tick and new value is first is a free value (log 24). -/
def State.markerCode (s : State) : Nat :=
  codeAtTick (Config.markersTickFirst s.choices) s.mrk.codeInUse s.mrk.filterCode

/-- The FILTER-CODE of the FRZ filter at a tick; which of tick and new value is first is a free value (log 24). -/
def State.freezeCode (s : State) : Nat :=
  codeAtTick (Config.freezeTickFirst s.choices) s.frzu.codeInUse s.frzu.filterCode

/-- Both units hold a new FILTER-CODE before their next sample (R91). -/
def State.settleCodes (s : State) : State :=
  (s.withMrk { s.mrk with codeInUse := s.mrk.filterCode }).withFrzu { s.frzu with codeInUse := s.frzu.filterCode }

/-- One sample at a marker input (R89, R94). -/
def State.sampleMarker (pin : MarkPin) (s : State) : State :=
  let sampled := filterSample (filterTime s.markerCode) (markLevel s.pins pin) (s.mrk.filters.get pin)
  let s1 := s.withMrk { s.mrk with filters := s.mrk.filters.set pin sampled.1 }
  match sampled.2 with
  | some rising => s1.takeEdge pin rising
  | none        => s1

/-! ### Freeze (R96, R97) -/

/-- What follows a change of a contribution to freeze (R97): when the effective state is no longer `before`, a FREEZE
record is claimed under DROP, and the FREEZE alert is set if the new state is on. -/
def State.freezeChanged (before : Bool) (cause : FreezeCause) (s : State) : State :=
  let on := s.frzu.effective
  if on = before then s
  else
    let s1 := s.postClaim .freezeUnit { body := .freeze on cause, policy := .drop, close := .none }
    if on then s1.setAlert freezeFlag else s1

/-- One sample at the FRZ filter (R89, R96). -/
def State.sampleFreeze (s : State) : State :=
  let sampled := filterSample (filterTime s.freezeCode) s.pins.frz s.frzu.filter
  (s.withFrzu { s.frzu with filter := sampled.1 }).freezeChanged s.frzu.effective .pin

/-! ### The tick (R84 to R87) -/

/-- The OPEN frame one tick older, stopping at 65536 (R64). -/
def ageFrame (f : OpenFrame) : OpenFrame := { f with age := min (f.age + 1) Config.ageStop }

/-- The marker claims that wait are taken before a tick, in their order: the records of edges of one tick carry the same
time offset when they land in the same frame (R95, log 5). -/
def State.takeMarkerClaims (s : State) : State :=
  s.takeClaimsOf fun c => match c with
    | .marker _                      => true
    | .path | .failed | .freezeUnit  => false

/-- One tick at every timer, at the age of the OPEN frame and at the time counter (R64, R86, R87). The tick period that
begins has the length of the TICK-SHIFT now held (R85). -/
def State.tickCounters (s : State) : State :=
  let s1 := s.withTbs { s.tbs with time := s.tbs.time + 1, prescaler := 0, tickDue := false,
                                    shiftInUse := s.tbs.tickShift }
  let s2 := s1.withPath { s1.path with stallTimer := tickTimer s1.path.stallTimer }
  let s3 := s2.withJctl { s2.jctl with idleTimer := tickTimer s2.jctl.idleTimer, openFrame := s2.jctl.openFrame.map ageFrame }
  let s4 := s3.withLctl { s3.lctl with silenceTimer := tickTimer s3.lctl.silenceTimer,
                                       helloTimer := tickTimer s3.lctl.helloTimer }
  s4.withDlv { s4.dlv with ackTimer := tickTimer s4.dlv.ackTimer }

/-- One sample at each of the five filters (R89). -/
def State.sampleInputs (s : State) : State :=
  ((((s.sampleMarker .m0).sampleMarker .m1).sampleMarker .m2).sampleMarker .m3).sampleFreeze

/-- One choice more has been drawn if a unit met a new FILTER-CODE together with the tick (log 24). -/
def State.countChoice (s : State) : State := if s.codeChanging then s.withChoices (s.choices + 1) else s

/-- One tick, delivered to every block that counts ticks (R84), with the pin levels that `pins` holds. A frame-received report
that waits was made before it and is taken before it (log 10). -/
def State.takeTick (s : State) : State :=
  (s.takeMarkerClaims.takeFrameReport.tickCounters).sampleInputs.countChoice.settleCodes

/-! ### CLK periods (log 2) -/

/-- The prescaler over one CLK period: with the last of the 2^k periods of the tick period the count returns to 0 and the
tick is due (R84, R85). -/
def Timebase.clkPeriod (t : Timebase) : Timebase :=
  if t.prescaler + 1 < 2 ^ t.shiftInUse then { t with prescaler := t.prescaler + 1 }
  else { t with prescaler := 0, tickDue := true }

/-- The link transmitter over one CLK period: with the eighth a new byte time begins (R103). -/
def LinkTransmitter.clkPeriod (x : LinkTransmitter) : LinkTransmitter :=
  if x.byteClk + 1 < Config.clkPerByte then { x with byteClk := x.byteClk + 1 }
  else { x with byteClk := 0, byteDue := true }

/-- What is due or waits before a CLK period goes by (log 2): the claims of the path controller for its requests (log 6), a
frame-received report (log 10), a tick, a send end with its report (log 12), a byte of the uplink, an entry to
UP at the delivery controller and an entry to DOWN at each block (log 22), and a new FILTER-CODE (log 24) are taken, in this
order. Between them are moments at which owners may answer a GET-STATUS being executed (R176, log 28). -/
def State.takeDue (s : State) : State :=
  let s1 := s.takePathClaims.ownersAnswer.takeFrameReport
  let s2 := if s1.tbs.tickDue then s1.takeTick.ownersAnswer else s1
  let s3 := s2.finishSendEnd.ownersAnswer
  let s4 := if s3.ltx.byteDue then s3.byteTime.ownersAnswer else s3
  s4.takeUp.ownersAnswer.takeDown.settleCodes

/-- One CLK period in which no command is taken (log 2): what is due is taken, and the period passes, for a GET-STATUS being
executed too (R155). -/
def State.clkPeriod (s : State) : State :=
  let s3 := s.takeDue
  ((s3.withTbs s3.tbs.clkPeriod).withLtx s3.ltx.clkPeriod).statusPeriod

/-- So many CLK periods. -/
def State.clkPeriods : Nat → State → State
  | 0, s     => s
  | n + 1, s => State.clkPeriods n s.clkPeriod

/-- The CLK periods left until the tick of the tick period in progress is due (R84, R85). -/
def Timebase.periodsLeft (t : Timebase) : Nat :=
  if t.tickDue then 0 else 2 ^ t.shiftInUse - (t.prescaler + 1) + 1

/-- TICK (R84): the prescaler counts the CLK periods left of its 2^k, and the tick is delivered with the pin levels at it. -/
def execTick (p : Pins) (s : State) : Host.Outcome State Fault Refusal :=
  nextOf ((s.clkPeriods s.tbs.periodsLeft).withPins p).takeTick

end Sys2Proof.Machine
end

