-- ==== Sys2Proof/Machine/Downlink.lean ====
section
/-! DEFINITION. The link receiver's discards and the checks on a completed body (section 6.3). -/

namespace Sys2Proof.Machine

/-! ### Discards (R111) -/

/-- One more body discarded under a reason. -/
def DiscardCounters.count (c : DiscardCounters) (reason : Discard) : DiscardCounters :=
  match reason with
  | .abort  => { c with abort := satInc c.abort }
  | .escape => { c with escape := satInc c.escape }
  | .length => { c with length := satInc c.length }
  | .crc    => { c with crc := satInc c.crc }
  | .kind   => { c with kind := satInc c.kind }
  | .state  => { c with state := satInc c.state }

/-- The reason counts as an error of the line: ABORT, ESCAPE, LENGTH, CRC. -/
def Discard.isLine (reason : Discard) : Bool :=
  match reason with
  | .abort | .escape | .length | .crc => true
  | .kind | .state                    => false

/-- A discard counted at the receiver, without any alert (R111, R150). -/
def State.countDiscard (reason : Discard) (s : State) : State :=
  s.withLrx { s.lrx with discards := s.lrx.discards.count reason }

/-- A body discarded by the receiver (R111): counted, and the LINE alert set for a line reason. -/
def State.discardBody (reason : Discard) (s : State) : State :=
  if reason.isLine then (s.countDiscard reason).setAlert lineFlag else s.countDiscard reason

/-! ### Judging a body (R109, R110) -/

/-- Downlink frame kinds (Table 6-8). -/
inductive DownKind where
  | hello
  | ack
  | nak
  | command
deriving DecidableEq, Repr

/-- Kind codes of the downlink (Table 6-8). -/
def downKindOf (b : Byte) : Option DownKind :=
  if b = 0x68 then some .hello else if b = 0x61 then some .ack else if b = 0x6E then some .nak
  else if b = 0x63 then some .command else none

/-- The body length suits the kind (check 4 of Table 6-6). -/
def lengthSuits (k : DownKind) (n : Nat) : Bool :=
  match k with
  | .hello | .ack | .nak => decide (n = 4)
  | .command             => decide (5 ≤ n) && decide (n ≤ 64)

/-- The link state accepts the kind (check 5 of Table 6-6). -/
def linkAccepts (link : Link) (k : DownKind) : Bool :=
  match k, link with
  | .hello, .training => true
  | _, .up            => true
  | _, _              => false

/-- The fields of an accepted body, given without its check value (Table 6-12). -/
def bodyOf (k : DownKind) (payload : List Byte) : Body :=
  match k with
  | .hello   => .hello (payload.getD 1 0)
  | .ack     => .ack (payload.getD 1 0)
  | .nak     => .nak (payload.getD 1 0)
  | .command => .command (payload.getD 1 0) (payload.getD 2 0) (payload.drop 3)

/-- How a completed body is judged: discarded under a reason, with or without a frame-received report, or accepted. -/
inductive Verdict where
  | discarded (reason : Discard) (received : Bool)
  | accepted (b : Body)
deriving DecidableEq, Repr

/-- The checks of Table 6-6 in order; a body that passes check 2 gives a frame-received report (R109, R110). -/
def judgeBody (link : Link) (bytes : List Byte) : Verdict :=
  let payload := bytes.take (bytes.length - 2)
  if bytes.length < 3 then .discarded .length false
  else if be16 (checkValue payload) ≠ bytes.drop (bytes.length - 2) then .discarded .crc false
  else match downKindOf (payload.getD 0 0) with
    | none   => .discarded .kind true
    | some k =>
      if lengthSuits k bytes.length then
        if linkAccepts link k then .accepted (bodyOf k payload) else .discarded .state true
      else .discarded .length true

end Sys2Proof.Machine
end

