-- ==== Sys2Proof/Machine/Commands.lean ====
section
/-! DEFINITION. The command unit: the taking of a command (Table 9-3) and each command (chapter 9). -/

namespace Sys2Proof.Machine

/-! ### Intake (R150 to R155) -/

/-- What executing a command gives: the state, and the result and the reply data, or neither while the command is still being
executed (GET-STATUS, log 28). -/
abbrev Executed := State × Option (Result × List Byte)

/-- A command executed whole. -/
def done (s : State) (result : Result) (data : List Byte) : Executed := (s, some (result, data))

/-- What follows the execution of a command: its reply is formed (R154), or it is still being executed (R155). -/
def State.formReply (tag code : Byte) (e : Executed) : State :=
  match e.2 with
  | some (result, data) => e.1.giveReply { tag, code, result, data }
  | none                => e.1

/-- A command discarded after the entry to DOWN (R150): STATE is counted at the link receiver, no alert is set. -/
def State.discardAsState (s : State) : State := s.countDiscard .state

/-- A command discarded because the reply queue is full (R151). -/
def State.discardFull (s : State) : State :=
  s.withCmd { s.cmd with commandsDiscarded := satInc s.cmd.commandsDiscarded }

/-- The stored reply, if its tag is this tag (R152). -/
def CommandUnit.storedFor (c : CommandUnit) (tag : Byte) : Option Reply :=
  match c.lastTag with
  | some r => if r.tag = tag then some r else none
  | none   => none

/-- Steps 1 to 3 of Table 9-3, then `run` and the reply (R150 to R154). -/
def State.examine (tag code : Byte) (run : State → Executed) (s : State) : State :=
  if s.offLine then s.discardAsState
  else if s.cmd.replies.length ≥ Config.replyPlaces then s.discardFull
  else match s.cmd.storedFor tag with
    | some r => s.queueReply r
    | none   => State.formReply tag code (run s)

/-- The taking of a command: a GET-STATUS that is being executed is complete before it (R155, R176). -/
def State.intake (tag code : Byte) (run : State → Executed) (s : State) : State := s.finishStatus.examine tag code run

/-- Step 5 of Table 9-3 (R153), then execution, EXECUTING until the reply is formed (R155). -/
def withLength (n : Nat) (args : List Byte) (run : State → Executed) (s : State) : Executed :=
  if args.length = n then run (s.withCmd { s.cmd with execState := .executing }) else done s .badLength []

/-- A COMMAND body taken by the command unit, in the order in which the receiver hands bodies on (R110). -/
def State.takeCommand (tag code : Byte) (args : List Byte) (run : State → Executed) (s : State) : State :=
  s.takeHanded (.command tag code args) (State.intake tag code run)

/-! ### Watch table commands (R157, R158) -/

/-- GET-ENTRY (R157). -/
def runGetEntry (args : List Byte) (s : State) : Executed :=
  let index := argByte args 0
  match s.wtab.entries[index.toNat]? with
  | some e => done s .ok (entryData index e)
  | none   => done s .badIndex []

/-- SET-ENTRY (R158). -/
def runSetEntry (args : List Byte) (s : State) : Executed :=
  let answered := s.wtab.setEntry args
  done (s.withWtab answered.1) answered.2 []

/-- CLEAR-TABLE (R158). -/
def runClearTable (s : State) : Executed := done (s.withWtab s.wtab.clear) .ok []

/-! ### Parameter commands (R159, R160, R168) -/

/-- The value a parameter's owner holds (R159). -/
def State.paramValue (p : Param) (s : State) : Nat :=
  match p with
  | .frameLimit    => s.jctl.frameLimit
  | .idleClose     => s.jctl.idleClose
  | .tickShift     => s.tbs.tickShift
  | .sendWindow    => s.dlv.sendWindow
  | .ackTimeout    => s.dlv.ackTimeout
  | .retryLimit    => s.dlv.retryLimit
  | .stallLimit    => s.path.stallLimit
  | .settleCode    => s.lrx.settleCode
  | .helloInterval => s.lctl.helloInterval
  | .silenceLimit  => s.lctl.silenceLimit
  | .filterCode    => s.mrk.filterCode
  | .marker pin    => (s.mrk.markers.get pin).toNat
  | .alertEnable   => s.alr.enable.toNat

/-- A new SETTLE-CODE at the link receiver (R120): while it counts, in the DOWN that it has taken, a count already at or above
the new figure settles at once. -/
def State.setSettleCode (v : Nat) (s : State) : State :=
  let s1 := s.withLrx { s.lrx with settleCode := v }
  match s1.lrx.rx with
  | .notDecoding => if s1.lrx.settleCount ≥ settleFigure v then s1.settleReport else s1
  | .between | .collecting _ | .escaped _ | .discarding _ => s1

/-- A new value taken by the parameter's owner (R160, Table 9-6). -/
def State.setParamValue (p : Param) (v : Nat) (s : State) : State :=
  match p with
  | .frameLimit    => s.withJctl { s.jctl with frameLimit := v }
  | .idleClose     => s.withJctl { s.jctl with idleClose := v }
  | .tickShift     => s.withTbs { s.tbs with tickShift := v }
  | .sendWindow    => s.withDlv { s.dlv with sendWindow := v }
  | .ackTimeout    => s.withDlv { s.dlv with ackTimeout := v }
  | .retryLimit    => s.withDlv { s.dlv with retryLimit := v }
  | .stallLimit    => s.withPath { s.path with stallLimit := v }
  | .settleCode    => s.setSettleCode v
  | .helloInterval => s.withLctl { s.lctl with helloInterval := v }
  | .silenceLimit  => s.withLctl { s.lctl with silenceLimit := v }
  | .filterCode    => (s.withMrk { s.mrk with filterCode := v }).withFrzu { s.frzu with filterCode := v }
  | .marker pin    => s.withMrk { s.mrk with markers := s.mrk.markers.set pin (BitVec.ofNat 3 v) }
  | .alertEnable   => s.withAlr { s.alr with enable := BitVec.ofNat 6 v }

/-- GET-PARAM (R159). -/
def runGetParam (args : List Byte) (s : State) : Executed :=
  match paramOf (argByte args 0) with
  | some p => done s .ok (be32 (BitVec.ofNat 32 (s.paramValue p)))
  | none   => done s .badValue []

/-- SET-PARAM (R160). -/
def runSetParam (args : List Byte) (s : State) : Executed :=
  match paramOf (argByte args 0) with
  | some p =>
    if paramInRange p (argWord args 1).toNat then done (s.setParamValue p (argWord args 1).toNat) .ok []
    else done s .badValue []
  | none   => done s .badValue []

/-! ### Status and alerts (R117, R161, R162) -/

/-- GET-STATUS (R161): the owners are asked, and each answers at a moment of its own; the reply is formed when the last has
answered (R176, log 28). -/
def runGetStatus (tag : Byte) (args : List Byte) (s : State) : Executed :=
  match flagOf (argByte args 0) with
  | some clear => (s.beginStatus tag clear, none)
  | none       => done s .badValue []

/-- CLEAR-ALERTS (R162, R172): each flag whose bit is 1 in the mask is cleared; bits 6 and 7 have no effect. -/
def runClearAlerts (args : List Byte) (s : State) : Executed :=
  done (s.withAlr { s.alr with flags := s.alr.flags &&& ~~~((argByte args 0).extractLsb' 0 6) }) .ok []

/-! ### Journal commands (R163 to R165) -/

/-- FLUSH (R74, R163). -/
def runFlush (s : State) : Executed :=
  match s.jctl.openFrame with
  | some _ => done (s.withJctl (s.jctl.closeOpen .flush)) .ok []
  | none   => done s .empty []

/-- The claim of a MARK command (R164): origin 4, the command's code, under DROP. -/
def markCommandClaim (code : BitVec 16) (close : Bool) : Claim :=
  { body := .mark .recorder code, policy := .drop, close := if close then .mark else .none }

/-- MARK (R164): the reply's recorded flag tells the journal controller's answer. -/
def runMark (args : List Byte) (s : State) : Executed :=
  match flagOf (argByte args 2) with
  | some close =>
    let answered := s.claim (markCommandClaim (argHalf args 0) close)
    done answered.1 .ok [match answered.2 with | .appended => 0x01 | .noSpace => 0x00]
  | none => done s .badValue []

/-- The journal controller after a journal restart (R81, points 2 to 7). -/
def Journal.restart (j : Journal) : Journal :=
  { j with frames := [], openFrame := none, pendingLoss := 0, nextSeq := 0, epoch := j.epoch + 1, idleTimer := none }

/-- Journal restart (R81). -/
def State.restartJournal (s : State) : State :=
  let s1 := s.abortSending
  let s2 := s1.withJctl s1.jctl.restart
  (s2.withDlv { s2.dlv with ackTimer := none }).sendSpaceFreed

/-- RESTART-JOURNAL (R165): the reply carries the new epoch. -/
def runRestartJournal (s : State) : Executed := done s.restartJournal .ok (be16 s.restartJournal.jctl.epoch)

/-! ### Freeze commands (R98, R99, R166) -/

/-- Command freeze set, with what follows a change of the effective state (R97). -/
def State.setCommandFreeze (on : Bool) (s : State) : State :=
  (s.withFrzu { s.frzu with commandFreeze := on }).freezeChanged s.frzu.effective .command

/-- FREEZE (R98). -/
def runFreeze (s : State) : Executed := done (s.setCommandFreeze true) .ok []

/-- THAW (R99): PIN-HELD when pin freeze is on. -/
def runThaw (s : State) : Executed :=
  done (s.setCommandFreeze false) (if s.frzu.pinFreeze then .pinHeld else .ok) []

/-! ### The thirteen rows -/

/-- Steps 4 to 6 of Table 9-3 for any code (R153). -/
def runCode (tag code : Byte) (args : List Byte) : State → Executed :=
  match code.toNat with
  | 0x01 => withLength 1 args (runGetEntry args)
  | 0x02 => withLength 18 args (runSetEntry args)
  | 0x03 => withLength 0 args runClearTable
  | 0x04 => withLength 1 args (runGetParam args)
  | 0x05 => withLength 5 args (runSetParam args)
  | 0x06 => withLength 1 args (runGetStatus tag args)
  | 0x07 => withLength 1 args (runClearAlerts args)
  | 0x08 => withLength 0 args runFlush
  | 0x09 => withLength 3 args (runMark args)
  | 0x0A => withLength 0 args runFreeze
  | 0x0B => withLength 0 args runThaw
  | 0x0C => withLength 0 args runRestartJournal
  | _    => fun s => done s .badCommand []

/-- GET_ENTRY: code 01h, 1 argument byte (Table 6-15, R157). -/
def execGetEntry (tag : Byte) (args : List Byte) (s : State) : Host.Outcome State Fault Refusal :=
  nextOf (s.takeCommand tag 0x01 args (withLength 1 args (runGetEntry args)))

/-- SET_ENTRY: code 02h, 18 argument bytes (R15, R158). -/
def execSetEntry (tag : Byte) (args : List Byte) (s : State) : Host.Outcome State Fault Refusal :=
  nextOf (s.takeCommand tag 0x02 args (withLength 18 args (runSetEntry args)))

/-- CLEAR_TABLE: code 03h, no argument (R17, R158). -/
def execClearTable (tag : Byte) (args : List Byte) (s : State) : Host.Outcome State Fault Refusal :=
  nextOf (s.takeCommand tag 0x03 args (withLength 0 args runClearTable))

/-- GET_PARAM: code 04h, 1 argument byte (R159). -/
def execGetParam (tag : Byte) (args : List Byte) (s : State) : Host.Outcome State Fault Refusal :=
  nextOf (s.takeCommand tag 0x04 args (withLength 1 args (runGetParam args)))

/-- SET_PARAM: code 05h, 5 argument bytes (R160). -/
def execSetParam (tag : Byte) (args : List Byte) (s : State) : Host.Outcome State Fault Refusal :=
  nextOf (s.takeCommand tag 0x05 args (withLength 5 args (runSetParam args)))

/-- GET_STATUS: code 06h, 1 argument byte (R161). -/
def execGetStatus (tag : Byte) (args : List Byte) (s : State) : Host.Outcome State Fault Refusal :=
  nextOf (s.takeCommand tag 0x06 args (withLength 1 args (runGetStatus tag args)))

/-- CLEAR_ALERTS: code 07h, 1 argument byte (R162). -/
def execClearAlerts (tag : Byte) (args : List Byte) (s : State) : Host.Outcome State Fault Refusal :=
  nextOf (s.takeCommand tag 0x07 args (withLength 1 args (runClearAlerts args)))

/-- FLUSH: code 08h, no argument (R163). -/
def execFlush (tag : Byte) (args : List Byte) (s : State) : Host.Outcome State Fault Refusal :=
  nextOf (s.takeCommand tag 0x08 args (withLength 0 args runFlush))

/-- MARK: code 09h, 3 argument bytes (R164). -/
def execMark (tag : Byte) (args : List Byte) (s : State) : Host.Outcome State Fault Refusal :=
  nextOf (s.takeCommand tag 0x09 args (withLength 3 args (runMark args)))

/-- FREEZE: code 0Ah, no argument (R98, R166). -/
def execFreeze (tag : Byte) (args : List Byte) (s : State) : Host.Outcome State Fault Refusal :=
  nextOf (s.takeCommand tag 0x0A args (withLength 0 args runFreeze))

/-- THAW: code 0Bh, no argument (R99, R166). -/
def execThaw (tag : Byte) (args : List Byte) (s : State) : Host.Outcome State Fault Refusal :=
  nextOf (s.takeCommand tag 0x0B args (withLength 0 args runThaw))

/-- RESTART_JOURNAL: code 0Ch, no argument (R165). -/
def execRestartJournal (tag : Byte) (args : List Byte) (s : State) : Host.Outcome State Fault Refusal :=
  nextOf (s.takeCommand tag 0x0C args (withLength 0 args runRestartJournal))

/-- UNKNOWN_COMMAND_CODE (R153). A code from 01h to 0Ch, which this row does not stand for, is executed as the command it
names (log 23). -/
def execUnknownCommandCode (tag code : Byte) (args : List Byte) (s : State) : Host.Outcome State Fault Refusal :=
  nextOf (s.takeCommand tag code args (runCode tag code args))

end Sys2Proof.Machine
end

