-- ==== Sys2Proof/Machine/Receiver.lean ====
section
/-! DEFINITION. The link receiver: the handing on of bodies and DOWNLINK_BYTE (section 6.3, R119). -/

namespace Sys2Proof.Machine

/-! ### Handing on (R110) -/

/-- What the block that a body is handed to does with it (R110): the same as the row of its kind. -/
def State.deliver (b : Body) (s : State) : State :=
  match b with
  | .hello e               => s.takeHello e
  | .ack n                 => s.takeAck n
  | .nak n                 => s.takeNak n
  | .command tag code args => s.intake tag code (runCode tag code args)

/-- The handing on of the body that waits is finished, after its frame-received report, and so is that of a HELLO that the link
controller has handed to the delivery controller (R110, R123, R145); between the two is a moment at which owners may answer a
GET-STATUS being executed (R176, log 28). The block deals with the body in the link state it finds: in DOWN a HELLO is ignored
(R123, R124). -/
def State.finishHanding (s : State) : State :=
  let s1 := s.takeFrameReport
  match s1.wires.handedOn with
  | some b => (s1.handedOff.deliver b).ownersAnswer.takeUp
  | none   => s1.takeUp

/-- An accepted body is handed on; it waits until the row of its kind takes it (R110, log 9). -/
def State.handOn (b : Body) (s : State) : State := s.withWires { s.wires with handedOn := some b }

/-- A frame-received report is made to the link controller (R110); it waits until the link controller takes it, so that an
expiry of the silence timer may be taken first (R123, log 10). -/
def State.reportFrame (s : State) : State := s.withWires { s.wires with frameReport := true }

/-- A verdict carried out. The frame-received report of an accepted HELLO travels with the HELLO (R124); that of any other body
is an event of its own at the link controller, before or after the body is taken by its block (R110, R123, R130; log 10,
log 26). -/
def State.applyVerdict (v : Verdict) (s : State) : State :=
  match v with
  | .discarded reason true  => s.reportFrame.discardBody reason
  | .discarded reason false => s.discardBody reason
  | .accepted (.hello e)    => s.handOn (.hello e)
  | .accepted b             => s.reportFrame.handOn b

/-! ### One byte (R108, R119) -/

/-- The receiver's decoding state replaced. -/
def State.setRx (rx : RxState) (s : State) : State := s.withLrx { s.lrx with rx := rx }

/-- A body byte is collected; the 65th is not stored and fixes LENGTH (R108). -/
def collect (bytes : List Byte) (b : Byte) : RxState :=
  if bytes.length ≥ Config.collectPlaces then .discarding .length else .collecting (bytes ++ [b])

/-- A byte in DOWN (R119): a delimiter raises the settle count, any other byte sets it to 0, and a count that reaches the
settle figure makes a settle report. -/
def State.countSettle (b : Byte) (s : State) : State :=
  if b = Config.delimiter then
    let s1 := s.withLrx { s.lrx with settleCount := s.lrx.settleCount + 1 }
    if s1.lrx.settleCount ≥ settleFigure s1.lrx.settleCode then s1.settleReport else s1
  else s.withLrx { s.lrx with settleCount := 0 }

/-- One downlink byte, by decoding state (Table 6-5); `link` is the link state against which a body that ends is judged (R109). -/
def State.takeByte (link : Link) (b : Byte) (s : State) : State :=
  match s.lrx.rx with
  | .notDecoding => s.countSettle b
  | .between =>
    if b = Config.delimiter then s
    else if b = Config.escape then s.setRx (.escaped [])
    else s.setRx (.collecting [b])
  | .collecting bytes =>
    if b = Config.delimiter then (s.setRx .between).applyVerdict (judgeBody link bytes)
    else if b = Config.escape then s.setRx (.escaped bytes)
    else s.setRx (collect bytes b)
  | .escaped bytes =>
    if b = Config.delimiter then (s.setRx .between).discardBody .abort
    else match unescaped b with
      | some v => s.setRx (collect bytes v)
      | none   => s.setRx (.discarding .escape)
  | .discarding reason =>
    if b = Config.delimiter then (s.setRx .between).discardBody reason else s

/-- The byte ends a body that is then judged (R109). -/
def LinkReceiver.endsBody (b : Byte) (x : LinkReceiver) : Bool :=
  match x.rx with
  | .collecting _ => b == Config.delimiter
  | .notDecoding | .between | .escaped _ | .discarding _ => false

/-- The byte completes the settle count, and so makes a settle report (R119). -/
def LinkReceiver.settles (b : Byte) (x : LinkReceiver) : Bool :=
  match x.rx with
  | .notDecoding => b == Config.delimiter && decide (x.settleCount + 1 ≥ settleFigure x.settleCode)
  | .between | .collecting _ | .escaped _ | .discarding _ => false

/-- The body is a recorder HELLO. -/
def Body.isHello (b : Body) : Bool :=
  match b with
  | .hello _                      => true
  | .ack _ | .nak _ | .command .. => false

/-- A recorder HELLO waits that is to move the link from TRAINING to UP (R124). -/
def State.movePending (s : State) : Bool := decide (s.lctl.link = .training) && s.wires.handedOn.any Body.isHello

/-- A byte that meets the end of the handing on of the body before it. When that body is the HELLO that moves the link to UP, the
move and the end of the body now judged come together, and the receiver takes them in either order, by a free value: the body is
judged against TRAINING, before the move, or against UP, after it (R109, log 9). -/
def State.takeByteHandedOn (b : Byte) (s : State) : State :=
  let s1 := (if s.movePending then s.withChoices (s.choices + 1) else s).finishHanding
  s1.takeByte (if s.movePending && Config.judgesFirst s.choices then s.lctl.link else s1.lctl.link) b

/-- DOWNLINK_BYTE (R108). The handing on of a body is finished with the end of the next body (R110), and before a settle report,
in DOWN: a body whose report was overtaken by the silence timer's expiry does not wait into the next TRAINING (R123, log 9). -/
def execDownlinkByte (b : Byte) (s : State) : Host.Outcome State Fault Refusal :=
  nextOf (if s.lrx.endsBody b || s.lrx.settles b then s.takeByteHandedOn b else s.takeByte s.lctl.link b)

end Sys2Proof.Machine
end

