-- ==== Sys2Proof/Machine/Records.lean ====
section
/-! DEFINITION. The journal controller's own events: APPEND_CLAIM and IDLE_CLOSE_TIMER_EXPIRY (R63, R73). -/

namespace Sys2Proof.Machine

/-- The oldest waiting claim of a claimant, with the claims that stay waiting (R56, R95; log 5). -/
def takeWaiting (claimant : Claimant) : List WaitingClaim → Option (Claim × List WaitingClaim)
  | []      => none
  | w :: ws =>
    if w.claimant = claimant then some (w.claim, ws)
    else match takeWaiting claimant ws with
      | some (c, rest) => some (c, w :: rest)
      | none           => none

/-- APPEND_CLAIM (R63): the journal controller takes the oldest waiting claim of the claimant. Of the claims that wait,
REFUSED, FAILED, MARK and FREEZE, the claimant does nothing more on the answer (R32, R39, R94, R97); behind the path
controller's REFUSED claims stands that for its request in hand, which is answered (R33, R56). With no such claim waiting
there is none to take (log 5). -/
def execAppendClaim (claimant : Claimant) (s : State) : Host.Outcome State Fault Refusal :=
  match takeWaiting claimant s.wires.claims, claimant with
  | some (c, rest), _   => nextOf ((s.withWires { s.wires with claims := rest }).claim c).1
  | none, .path         => nextOf s.answerClaim
  | none, .failed       => nextOf s
  | none, .marker _     => nextOf s
  | none, .freezeUnit   => nextOf s

/-- The idle-close timer's expiry (R73): the OPEN frame is closed with cause IDLE. -/
def State.idleExpired (s : State) : State :=
  s.withJctl ({ s.jctl with idleTimer := none }.closeOpen .idle)

/-- IDLE_CLOSE_TIMER_EXPIRY (R73): taken when the idle-close timer's expiry is due (log 7). -/
def execIdleCloseTimerExpiry (s : State) : Host.Outcome State Fault Refusal :=
  if expiryDue s.jctl.idleTimer then nextOf s.idleExpired else nextOf s

end Sys2Proof.Machine
end

