-- ==== Sys2Proof/Machine/Dispatch.lean ====
section
/-! DEFINITION. The meaning of each command: one arm for each row of spec/opcode_table.json. -/

namespace Sys2Proof.Machine

/-- A command's effect on everything but the queue. -/
def exec (i : Instr) (s : State) : Host.Outcome State Fault Refusal :=
  match i with
  | .coldReset p => Sys2Proof.Machine.execColdReset p s
  | .tick p => Sys2Proof.Machine.execTick p s
  | .stallTimerExpiry => Sys2Proof.Machine.execStallTimerExpiry s
  | .idleCloseTimerExpiry => Sys2Proof.Machine.execIdleCloseTimerExpiry s
  | .silenceTimerExpiry => Sys2Proof.Machine.execSilenceTimerExpiry s
  | .helloTimerExpiry => Sys2Proof.Machine.execHelloTimerExpiry s
  | .ackTimerExpiry => Sys2Proof.Machine.execAckTimerExpiry s
  | .retryLimitReport => Sys2Proof.Machine.execRetryLimitReport s
  | .requestTaken r => Sys2Proof.Machine.execRequestTaken r s
  | .downstreamResponse r => Sys2Proof.Machine.execDownstreamResponse r s
  | .responseAccepted => Sys2Proof.Machine.execResponseAccepted s
  | .spaceFreedReport => Sys2Proof.Machine.execSpaceFreedReport s
  | .appendClaim c => Sys2Proof.Machine.execAppendClaim c s
  | .downlinkByte b => Sys2Proof.Machine.execDownlinkByte b s
  | .recorderHello e => Sys2Proof.Machine.execRecorderHello e s
  | .ack n => Sys2Proof.Machine.execAck n s
  | .nak n => Sys2Proof.Machine.execNak n s
  | .getEntry tag args => Sys2Proof.Machine.execGetEntry tag args s
  | .setEntry tag args => Sys2Proof.Machine.execSetEntry tag args s
  | .clearTable tag args => Sys2Proof.Machine.execClearTable tag args s
  | .getParam tag args => Sys2Proof.Machine.execGetParam tag args s
  | .setParam tag args => Sys2Proof.Machine.execSetParam tag args s
  | .getStatus tag args => Sys2Proof.Machine.execGetStatus tag args s
  | .clearAlerts tag args => Sys2Proof.Machine.execClearAlerts tag args s
  | .flush tag args => Sys2Proof.Machine.execFlush tag args s
  | .mark tag args => Sys2Proof.Machine.execMark tag args s
  | .freeze tag args => Sys2Proof.Machine.execFreeze tag args s
  | .thaw tag args => Sys2Proof.Machine.execThaw tag args s
  | .restartJournal tag args => Sys2Proof.Machine.execRestartJournal tag args s
  | .unknownCommandCode tag code args => Sys2Proof.Machine.execUnknownCommandCode tag code args s
  | .frameBoundary => Sys2Proof.Machine.execFrameBoundary s
  | .sendEnd => Sys2Proof.Machine.execSendEnd s

end Sys2Proof.Machine
end

