-- ==== Sys2Proof/Machine/Step.lean ====
section
/-! DEFINITION. One step: the command at the front of the queue, or, with none, one CLK period. -/

namespace Sys2Proof.Machine

/-- One step: the command at the front of the queue is taken off and run on the state with the queue's rest. On an empty
queue one CLK period passes, in which a tick, a byte of the uplink and the marks that are due are taken (log 2). -/
def step (s : State) : Host.Outcome State Fault Refusal :=
  match s.pending with
  | c :: rest => exec c (s.withPending rest)
  | []        => .next s.clkPeriod

/-- The state with the command that a word spells at the front of its queue; unchanged where the word spells none. -/
def State.withFetchWord (s : State) (nbits w : Nat) : State :=
  match decodeTableWord nbits w with
  | some c => s.withPending (c :: s.pending)
  | none   => s

end Sys2Proof.Machine
end

