-- ==== Sys2Proof/Safety.lean ====
section
/-! DEFINITION. What the manual says holds of the part at all times, as predicates on the state: the terms in which the
invariants are stated. Each is decidable. -/

namespace Sys2Proof.Machine

/-! ### Parameters (Table 9-5) -/

/-- Every parameter holds a value of its range (R167), and so do the shift of the tick period in progress (R85) and the
FILTER-CODE of each unit's last sample (R91); both units hold the one FILTER-CODE (R89, R160). -/
abbrev State.paramsInRange (s : State) : Prop :=
  (256 ≤ s.jctl.frameLimit ∧ s.jctl.frameLimit ≤ 4096) ∧ s.jctl.idleClose ≤ 65535 ∧
  (s.tbs.tickShift ≤ 15 ∧ s.tbs.shiftInUse ≤ 15) ∧ (1 ≤ s.dlv.sendWindow ∧ s.dlv.sendWindow ≤ 16) ∧
  (1 ≤ s.dlv.ackTimeout ∧ s.dlv.ackTimeout ≤ 65535) ∧ (1 ≤ s.dlv.retryLimit ∧ s.dlv.retryLimit ≤ 15) ∧
  (1 ≤ s.path.stallLimit ∧ s.path.stallLimit ≤ 65535) ∧ s.lrx.settleCode ≤ 3 ∧
  (1 ≤ s.lctl.helloInterval ∧ s.lctl.helloInterval ≤ 65535) ∧
  (1 ≤ s.lctl.silenceLimit ∧ s.lctl.silenceLimit ≤ 65535) ∧
  (s.mrk.filterCode ≤ 7 ∧ s.mrk.codeInUse ≤ 7 ∧ s.frzu.filterCode = s.mrk.filterCode ∧ s.frzu.codeInUse ≤ 7)

/-- Every stored window begins on a 4-byte boundary, ends on the last byte of a 4-byte word and is not empty (R2). -/
abbrev State.windowsSound (s : State) : Prop := ∀ e ∈ s.wtab.entries.toList, rangeGood e.base e.limit = true

/-! ### Journal (chapter 4) -/

/-- The sequences, oldest first, run up to the one before `next` without a gap (R59, R61). -/
def runsUpTo (next : Seq) : List Seq → Prop
  | []      => True
  | x :: xs => x + BitVec.ofNat 8 (xs.length + 1) = next ∧ runsUpTo next xs

/-- The sequences of the held frames, oldest first. -/
def Journal.heldSeqs (j : Journal) : List Seq :=
  j.frames.map (·.seq) ++ match j.openFrame with
    | some f => [f.seq]
    | none   => []

/-- SENT frames, then at most one SENDING frame, then CLOSED frames (R59). -/
def statesInOrder : List Frame → Prop
  | []      => True
  | f :: fs =>
    match f.state with
    | .sent    => statesInOrder fs
    | .sending => ∀ g ∈ fs, g.state = .closed
    | .closed  => ∀ g ∈ fs, g.state = .closed

/-- A held frame that is not OPEN: at least one record, at most 4096 bytes, a retry count of at most 15 (R60). -/
abbrev frameSound (f : Frame) : Prop := f.records ≠ [] ∧ bytesOf f.records ≤ 4096 ∧ f.retryCount ≤ 15

/-- The OPEN frame: at least one record, at most 4096 bytes, an age of at most 65536 (R60, R64). -/
abbrev openSound (f : OpenFrame) : Prop := f.records ≠ [] ∧ bytesOf f.records ≤ 4096 ∧ f.age ≤ 65536

/-- The frame list holds at most 32 frames with consecutive sequences in the order of R59, each frame is sound, and the
bytes used never exceed 16384 (R58 to R61). -/
def Journal.sound (j : Journal) : Prop :=
  j.framesHeld ≤ 32 ∧ j.storeUsed ≤ 16384 ∧ runsUpTo j.nextSeq j.heldSeqs ∧ statesInOrder j.frames ∧
  (∀ f ∈ j.frames, frameSound f) ∧ (∀ f ∈ j.openFrame, openSound f) ∧
  (j.openFrame = none → j.idleTimer = none)

/-- Every held frame other than the oldest has retry count 0 (R142). -/
abbrev Journal.onlyOldestRetried (j : Journal) : Prop := ∀ f ∈ j.frames.drop 1, f.retryCount = 0

/-! ### Delivery and the uplink (chapters 7 and 8) -/

/-- While the link is not UP: once the delivery controller has taken the entry to DOWN, no frame is SENDING or SENT, delivery is
not open and the acknowledgment timer is stopped; and once the command unit has taken it, the reply queue is empty (R127,
R146, R150). -/
abbrev State.quietUnlessUp (s : State) : Prop :=
  s.lctl.link ≠ .up →
    (s.wires.falling.dlv = false →
      s.jctl.framesOut = 0 ∧ s.dlv.deliveryOpen = false ∧ s.dlv.ackTimer = none) ∧
    (s.wires.falling.cmd = false → s.cmd.replies = [])

/-- At most 16 frames are in SENDING or SENT (R134), and the acknowledgment timer runs only while a SENT frame is held
(R142). -/
abbrev State.deliverySound (s : State) : Prop :=
  s.jctl.framesOut ≤ 16 ∧ (s.dlv.ackTimer ≠ none → s.jctl.framesSent ≠ 0)

/-- A JOURNAL body in progress is that of the SENDING frame, and a frame is SENDING only during its body, or while the send end
of it waits for the journal controller, when no JOURNAL body is in progress, or until the delivery controller takes the entry
to DOWN with which the body was aborted (R127, R135, R136, R144). -/
abbrev State.bodyMatchesFrame (s : State) : Prop :=
  match s.ltx.body with
  | some ⟨.journal seq, _⟩ => s.jctl.sendingSeq = some seq ∧ s.wires.sendEnd = false
  | _                      => s.wires.sendEnd = false → s.wires.falling.dlv = false → s.jctl.sendingSeq = none

/-- With no body in progress no byte of one has been sent and the check value is at its start; a body starts once the
abort of the one before it has been sent, and at most its bytes and its check value are sent before its closing delimiter
(Table 6-2, R104, R105). That the mark, the bytes sent and the check value go back at the end or the abort of a body is the
model's choice (log 25, log 27). -/
abbrev State.lineSound (s : State) : Prop :=
  match s.ltx.body with
  | none   => s.ltx.bytesSent = 0 ∧ s.ltx.escapeSent = false ∧ s.ltx.check = 0xFFFF
  | some b => s.ltx.bytesSent ≤ b.bytes.length + 2 ∧ s.ltx.abortBytes = []

/-! ### Clock (R84, R103) -/

/-- The prescaler stands below the length of the tick period and at 0 while a tick is due; the byte time in progress has
fewer than 8 CLK periods behind it, and none while its byte is due (R84, R103; the two marks are the model's, log 2). -/
abbrev State.clockSound (s : State) : Prop :=
  s.tbs.prescaler < 2 ^ s.tbs.shiftInUse ∧ (s.tbs.tickDue = true → s.tbs.prescaler = 0) ∧
  s.ltx.byteClk < 8 ∧ (s.ltx.byteDue = true → s.ltx.byteClk = 0)

/-! ### Link (chapters 6 and 7) -/

/-- The receiver decodes exactly while the link is not DOWN and until it has taken the entry to DOWN, with at most 64 bytes
collected (R107, R118, R127). -/
abbrev State.receiverSound (s : State) : Prop :=
  match s.lrx.rx with
  | .notDecoding      => s.lctl.link = .down ∧ s.wires.falling.lrx = false
  | .between          => s.lctl.link ≠ .down ∨ s.wires.falling.lrx = true
  | .collecting bytes => (s.lctl.link ≠ .down ∨ s.wires.falling.lrx = true) ∧ 1 ≤ bytes.length ∧ bytes.length ≤ 64
  | .escaped bytes    => (s.lctl.link ≠ .down ∨ s.wires.falling.lrx = true) ∧ bytes.length ≤ 64
  | .discarding _     => s.lctl.link ≠ .down ∨ s.wires.falling.lrx = true

/-- The timers of Table 7-2: in DOWN both stopped, in TRAINING both running, in UP the silence timer alone; and HELLO is
pending only in TRAINING and until the transmitter takes the entry to DOWN (R122, R127). -/
abbrev State.linkTimersSound (s : State) : Prop :=
  match s.lctl.link with
  | .down     => s.lctl.silenceTimer = none ∧ s.lctl.helloTimer = none ∧
                   (s.wires.falling.ltx = false → s.ltx.helloPending = false)
  | .training => s.lctl.silenceTimer ≠ none ∧ s.lctl.helloTimer ≠ none
  | .up       => s.lctl.silenceTimer ≠ none ∧ s.lctl.helloTimer = none ∧ s.ltx.helloPending = false

/-- An entry to DOWN that some block has not yet taken is that of the DOWN in which the link stands, the transmitter takes it
no later than the delivery controller (R127), an entry to UP that the delivery controller has not yet taken is that of the UP
in which the link stands (R145), no command is being executed in TRAINING (R155; log 22, log 28), and of the bodies only a HELLO
waits there (Table 6-6, R123; log 9). -/
abbrev State.entrySound (s : State) : Prop :=
  (s.wires.falling ≠ FallMarks.none → s.lctl.link = .down) ∧
  (s.wires.falling.ltx = true → s.wires.falling.dlv = true) ∧
  (s.wires.upHello ≠ none → s.lctl.link = .up) ∧
  (s.cmd.reading ≠ none → s.lctl.link ≠ .training) ∧
  (s.lctl.link = .training → ∀ b ∈ s.wires.handedOn, b.isHello = true)

/-- The settle count is 0 to 512, and while the receiver counts it is below the settle figure (R119). -/
abbrev State.settleSound (s : State) : Prop :=
  s.lrx.settleCount ≤ 512 ∧ (s.lrx.rx = .notDecoding → s.lrx.settleCount < settleFigure s.lrx.settleCode)

/-! ### Command unit (chapter 9) -/

/-- At most 4 replies wait, with room for the reply of a GET-STATUS being executed (R149, R154), and the unit is EXECUTING
exactly while one is (R155; every other command is executed within its step, log 19). Of a GET-STATUS fewer than 16 CLK
periods, 2 byte times, have gone by and some owner has still to answer (R155, R176; log 28). -/
abbrev State.commandsSound (s : State) : Prop :=
  s.cmd.replies.length ≤ 4 ∧
  match s.cmd.reading with
  | none   => s.cmd.execState = .ready
  | some r => s.cmd.execState = .executing ∧ s.cmd.replies.length ≤ 3 ∧ r.periods < 16 ∧ r.complete = false

/-! ### Path controller (chapter 2) -/

/-- A tracking item that is not the head waits for its response (R24, R26). -/
abbrev onlyHeadAnswers (l : List Item) : Prop := ∀ it ∈ l.drop 1, it.phase = .waiting

/-- The item stands for a before-image read. -/
def Item.isPreRead (it : Item) : Bool := decide (it.cls = .preRead)

/-- The item waits for a response from memory: issued and not yet answered. -/
def Item.awaitsMemory (it : Item) : Bool :=
  match it.phase, it.cls with
  | .answering _, _ => false
  | .waiting, .local _ => false
  | .waiting, .preRead => true
  | .waiting, .unwatched => true
  | .waiting, .forwarded _ _ => true

/-- The tracking list and the path state fit together: at most 8 items (R23); WAIT-SLOT with a full list (R22); a place
kept for the request whose claim is unanswered (log 6) and in HOLD; the PRE-READ item last and only in PRE-READ (R30). -/
abbrev State.trackingSound (s : State) : Prop :=
  s.path.tracking.length ≤ 8 ∧ onlyHeadAnswers s.path.tracking ∧
  match s.path.state with
  | .idle        => s.path.tracking.all (fun it => !it.isPreRead)
  | .waitSlot _  => s.path.tracking.length = 8 ∧ s.path.tracking.all (fun it => !it.isPreRead)
  | .preRead _ _ => (s.path.tracking.dropLast.all fun it => !it.isPreRead) ∧
                      (s.path.tracking.getLast?.any fun it => it.isPreRead && decide (it.phase = .waiting))
  | .claiming _ _ _ => s.path.tracking.length ≤ 7 ∧ s.path.tracking.all (fun it => !it.isPreRead)
  | .hold _ _ _  => s.path.tracking.length ≤ 7 ∧ s.path.tracking.all (fun it => !it.isPreRead)

/-- Responses are held back only behind a head that answers upstream, and the requests issued are those of the items that
wait for memory (R25). -/
abbrev State.portsSound (s : State) : Prop :=
  (s.path.held ≠ [] → s.path.tracking.head?.any (fun it => decide (it.phase ≠ .waiting))) ∧
  s.path.issued.length = s.path.tracking.countP Item.awaitsMemory ∧
  (s.path.tracking.head?.all fun it => match it.cls with | .local _ => decide (it.phase ≠ .waiting) | _ => true)

/-- The stall timer runs exactly in HOLD (Table 2-3). -/
abbrev State.stallSound (s : State) : Prop :=
  match s.path.state with
  | .hold _ _ _ => s.path.stallTimer ≠ none
  | _           => s.path.stallTimer = none

/-! ### The age of the OPEN frame -/

/-- While the age of the OPEN frame is at most 65535 it is the time counter minus the base time (R64). -/
abbrev State.ageMatchesTime (s : State) : Prop :=
  ∀ f ∈ s.jctl.openFrame, f.age ≤ 65535 → f.baseTime + BitVec.ofNat 32 f.age = s.tbs.time

/-! ### All together -/

/-- Everything above at once: what the manual says holds of the part at all times. -/
structure State.Sound (s : State) : Prop where
  params   : s.paramsInRange
  windows  : s.windowsSound
  journal  : s.jctl.sound
  retried  : s.jctl.onlyOldestRetried
  quiet    : s.quietUnlessUp
  delivery : s.deliverySound
  body     : s.bodyMatchesFrame
  line     : s.lineSound
  clock    : s.clockSound
  receiver : s.receiverSound
  timers   : s.linkTimersSound
  entry    : s.entrySound
  settle   : s.settleSound
  commands : s.commandsSound
  tracking : s.trackingSound
  ports    : s.portsSound
  stall    : s.stallSound
  age      : s.ageMatchesTime

/-! ### Words of the statements -/

/-- Commands run one after another, up to the first that does not answer a next state. -/
def execAll : List Instr → State → Host.Outcome State Fault Refusal
  | [], s      => .next s
  | i :: is, s =>
    match exec i s with
    | .next t    => execAll is t
    | .fault f   => .fault f
    | .refused r => .refused r

/-- The tag, the code and the argument bytes of a command of the recorder (Table 6-15). -/
def commandFields : Instr → Option (Byte × Byte × List Byte)
  | .getEntry tag args => some (tag, 0x01, args)
  | .setEntry tag args => some (tag, 0x02, args)
  | .clearTable tag args => some (tag, 0x03, args)
  | .getParam tag args => some (tag, 0x04, args)
  | .setParam tag args => some (tag, 0x05, args)
  | .getStatus tag args => some (tag, 0x06, args)
  | .clearAlerts tag args => some (tag, 0x07, args)
  | .flush tag args => some (tag, 0x08, args)
  | .mark tag args => some (tag, 0x09, args)
  | .freeze tag args => some (tag, 0x0A, args)
  | .thaw tag args => some (tag, 0x0B, args)
  | .restartJournal tag args => some (tag, 0x0C, args)
  | .unknownCommandCode tag code args => some (tag, code, args)
  | _ => none

/-- The body is the next to be taken: it waits, or none waits (R110, log 9). -/
abbrev State.isNext (b : Body) (s : State) : Prop := s.wires.handedOn = none ∨ s.wires.handedOn = some b

/-- No change of the link state waits for the delivery controller (R118, log 22). -/
abbrev State.dlvCurrent (s : State) : Prop := s.wires.upHello = none ∧ s.wires.falling.dlv = false

/-- The body that a row of the recorder stands for (R110, Table 6-12). -/
def bodyOfRow (i : Instr) : Option Body :=
  match i with
  | .recorderHello e => some (.hello e)
  | .ack n           => some (.ack n)
  | .nak n           => some (.nak n)
  | _                => (commandFields i).map fun f => .command f.1 f.2.1 f.2.2

/-- A command with this tag passes steps 1 to 3 of Table 9-3 at once: no GET-STATUS is being executed (log 28), the link is UP
or the command unit has not yet taken the entry to DOWN (log 22), the reply queue has room and the tag is not the stored
one. -/
abbrev State.acceptsTag (tag : Byte) (s : State) : Prop :=
  (s.lctl.link = .up ∨ s.wires.falling.cmd = true) ∧ s.cmd.replies.length < 4 ∧ (∀ r ∈ s.cmd.lastTag, r.tag ≠ tag) ∧
  s.cmd.reading = none

/-- The state once a reply has been formed (R154): stored, queued, READY. -/
def State.replied (tag code : Byte) (result : Result) (data : List Byte) (s : State) : State :=
  { s with cmd := { s.cmd with execState := .ready, reading := none, lastTag := some ⟨tag, code, result, data⟩,
                               replies := s.cmd.replies ++ [⟨tag, code, result, data⟩] } }

/-- The bytes of a downlink body up to its check value (Table 6-12). -/
def downlinkBody : Body → List Byte
  | .hello e               => [0x68, e]
  | .ack n                 => [0x61, n]
  | .nak n                 => [0x6E, n]
  | .command tag code args => [0x63, tag, code] ++ args

/-- A downlink body as the recorder sends it: escaped, with its check value and its closing delimiter (R102, R106). -/
def downlinkLine (b : Body) : List Byte := escapeBody (withCheck (downlinkBody b)) ++ [0xC3]

/-- The lists of a record have one member for each beat (R44, R45, R48). -/
def RecordBody.complete (b : RecordBody) : Bool :=
  match b with
  | .write _ _ beats _ enables data =>
    enables.length == beatsOf beats &&
    match data with
    | .address           => true
    | .after after       => after.length == beatsOf beats
    | .both after before => after.length == beatsOf beats && before.length == beatsOf beats
    | .bothFailed after  => after.length == beatsOf beats
  | .refused _ _ beats _ enables => enables.length == beatsOf beats
  | .read _ _ _ _ | .failed _ _ _ _ | .mark _ _ | .freeze _ _ | .loss _ => true

/-- The commands of the memory path and of the journal controller. -/
def isPathCommand (i : Instr) : Bool :=
  match i with
  | .requestTaken _ | .downstreamResponse _ | .responseAccepted | .spaceFreedReport | .stallTimerExpiry
  | .appendClaim _ | .idleCloseTimerExpiry => true
  | _ => false

/-- The commands of the record link and of frame delivery, but for the commands of the recorder, and so but for a byte that
may have the handing on of one finished (R110), or bring a GET-STATUS to its end before TRAINING (R155, log 28). -/
def isLinkCommand (i : Instr) (s : State) : Bool :=
  match i with
  | .downlinkByte _ =>
    match s.wires.handedOn with
    | some (.command _ _ _) => false
    | _                     => s.cmd.reading.isNone
  | .recorderHello _ | .ack _ | .nak _ | .ackTimerExpiry | .silenceTimerExpiry | .helloTimerExpiry
  | .retryLimitReport | .frameBoundary | .sendEnd => true
  | _ => false

/-- The command may be an executed command of the recorder with this code: its row, UNKNOWN_COMMAND_CODE carrying the code
all the same (log 23), or a downlink byte while such a body waits (R110). -/
def carriesCode (code : Byte) (i : Instr) (s : State) : Bool :=
  (commandFields i).any (fun f => f.2.1 == code) ||
  match i, s.wires.handedOn with
  | .downlinkByte _, some (.command _ c _) => c == code
  | _, _                                   => false

/-- The transmitter once a JOURNAL body in progress has been given up (R105): an abort is still to be sent. -/
def State.abortedLine (s : State) : LinkTransmitter :=
  if s.ltx.inJournal then
    { s.ltx with body := none, bytesSent := 0, escapeSent := false, check := 0xFFFF,
                 abortBytes := if s.ltx.escapeSent then [0xC3] else [0xCC, 0xC3] }
  else s.ltx

/-- The sixteen counters of Table 10-3, each with its value. -/
def State.counters (s : State) : List Nat :=
  [s.jctl.recordsAppended.toNat, s.jctl.recordsLost.toNat, s.jctl.framesClosed.toNat, s.ltx.retransmitted.toNat,
   s.path.writesRefused.toNat, s.path.stallExpiries.toNat, s.path.writeFailures.toNat, s.path.unmatchedResponses.toNat,
   s.cmd.commandsDiscarded.toNat, s.lrx.discards.crc.toNat, s.lrx.discards.length.toNat, s.lrx.discards.abort.toNat,
   s.lrx.discards.escape.toNat, s.lrx.discards.kind.toNat, s.lrx.discards.state.toNat, s.dlv.range.toNat]

end Sys2Proof.Machine
end

