-- ==== Sys2Proof/Certificates/Slice0/Obligations.lean ====
section
/-! DEFINITION. The statements for the provers, in the order of OBLIGATIONS.json. Each docstring names the rules a
statement formalises, or the log entry of the choice it states. `nextOf t` is the next state t once a moment has passed at which
owners may answer a GET-STATUS being executed; with none being executed it is t itself (R176; StatusIsReadThenCleared,
log 28). -/

section

open Sys2Proof Sys2Proof.Machine

/-! ### The machine -/

/-- A step runs the command at the front of the queue on the state with the rest of the queue (the model's form, log 1). -/
def Obligations.StepRunsFrontOfQueue : Prop :=
  ∀ (c : Instr) (rest : List Instr) (s : State), s.pending = c :: rest → step s = exec c { s with pending := rest }

/-- No command ever faults or is refused: the spec names no event that stops the part (INVENTORY, Faults). That none touches
the queue of commands is the model's choice: the queue is its own (log 1), and COLD_RESET leaves it (log 21). -/
def Obligations.EveryCommandCompletes : Prop :=
  ∀ (i : Instr) (s : State), ∃ t, exec i s = .next t ∧ t.pending = s.pending

/-- On an empty queue one CLK period passes (the model's choice, log 2). What is due or waits is taken first, in this order:
the path controller's claims for its requests (R33; log 6); a frame-received report (R123; log 10); a tick, with the pin levels
last presented (log 3); a send end and its report (R136; log 12); a byte of the uplink; the entry to UP at the delivery
controller and the entry to DOWN at each block that has not taken it (R127, R145; log 22; what each does is in
RecorderHelloIsTaken and LinkFallsToDown), and both units hold a new FILTER-CODE (R91; log 24). Then the prescaler counts, up
to the tick at 2^k periods (R84, R85), and with the eighth period a new byte time begins (R103). While a GET-STATUS is executed
there are moments for its owners between these and at the end, and with the sixteenth period, the end of 2 byte times,
it is completed (R155, R176; log 28; what a moment and the completion do is in StatusIsReadThenCleared). -/
def Obligations.EmptyQueuePassesOneClkPeriod : Prop :=
  ∀ s : State, s.pending = [] →
    let period := fun (u : State) => ({ u with
      tbs := if u.tbs.prescaler + 1 < 2 ^ u.tbs.shiftInUse then { u.tbs with prescaler := u.tbs.prescaler + 1 }
             else { u.tbs with prescaler := 0, tickDue := true }
      ltx := if u.ltx.byteClk + 1 < 8 then { u.ltx with byteClk := u.ltx.byteClk + 1 }
             else { u.ltx with byteClk := 0, byteDue := true }
      mrk := { u.mrk with codeInUse := u.mrk.filterCode }
      frzu := { u.frzu with codeInUse := u.frzu.filterCode } } : State)
    (s.cmd.reading = none →
      let claimed := (∃ w ∈ s.wires.claims, w.claimant = .path) ∨ (∃ r a body, s.path.state = .claiming r a body)
      (claimed → ∀ t, exec (.appendClaim .path) s = .next t → step s = step t) ∧
      (¬ claimed → s.wires.frameReport = true → step s = step s.takeFrameReport) ∧
      (¬ claimed → s.wires.frameReport = false → s.tbs.tickDue = true →
        ∀ t, exec (.tick s.pins) s = .next t → step s = step t) ∧
      (¬ claimed → s.wires.frameReport = false → s.tbs.tickDue = false →
        (s.wires.sendEnd = true ∨ s.wires.sendReport = true → ∀ t, exec .sendEnd s = .next t → step s = step t) ∧
        (s.wires.sendEnd = false → s.wires.sendReport = false →
          step s = .next (period (if s.ltx.byteDue then s.byteTime else s).takeUp.takeDown)))) ∧
    (∀ r, s.cmd.reading = some r →
      let afterClaims := s.takePathClaims.ownersAnswer.takeFrameReport
      let afterTick := if afterClaims.tbs.tickDue then afterClaims.takeTick.ownersAnswer else afterClaims
      let afterSendEnd := afterTick.finishSendEnd.ownersAnswer
      let afterByte := if afterSendEnd.ltx.byteDue then afterSendEnd.byteTime.ownersAnswer else afterSendEnd
      let v := period afterByte.takeUp.ownersAnswer.takeDown
      step s = .next (match v.cmd.reading with
        | none   => v
        | some q =>
          if q.periods + 1 < 16 then
            State.ownersAnswer { v with cmd := { v.cmd with reading := some { q with periods := q.periods + 1 } } }
          else v.finishStatus)) ∧
    (∀ n r, s.cmd.reading = some r → 0 < n → 16 ≤ r.periods + n → (s.clkPeriods n).cmd.reading = none)

/-- What a byte time puts on the uplink. A started body goes out as its bytes and its check value, high byte first, each C3h as
CCh D3h and each CCh as CCh DCh, and then its closing delimiter, which for a JOURNAL body leaves the send end to be taken
(R102, R104, R106, R136; log 12); before any body, the bytes of an abort (R105); at a frame boundary the choice is made, and
fill or the first byte of the body chosen goes out (R104, R132). The model's own: a byte time puts one byte and ends the wait
for it (log 2); the mark of an awaited second byte is no during an abort (log 25); the bytes sent and the check value go back
at the end of a body (log 27). The owners of a GET-STATUS in execution may answer after the command (R176; log 28). -/
def Obligations.UplinkLineCarriesBody : Prop :=
  ∀ (s : State) (b : TxBody),
    let y : State := { s with ltx := { s.ltx with body := some b, bytesSent := 0, escapeSent := false, check := 0xFFFF } }
    let sent := (b.bytes ++ be16 (checkValue b.bytes)).flatMap
      (fun v => if v = 0xC3 then [0xCC, 0xD3] else if v = 0xCC then [0xCC, 0xDC] else [v])
    let z := State.byteTime^[sent.length] y
    let ended := { s.ltx with body := none, bytesSent := 0, escapeSent := false, check := 0xFFFF, byteDue := false
                              lastByte := some 0xC3 }
    (s.ltx.abortBytes = [] →
      (∀ k < sent.length, (State.byteTime^[k + 1] y).ltx.lastByte = sent[k]?) ∧
      z = { y with ltx := { y.ltx with bytesSent := b.bytes.length + 2, check := checkValue b.bytes, byteDue := false
                                       lastByte := sent.getLast? } } ∧
      ((∀ seq, b.kind ≠ .journal seq) → z.byteTime = { y with ltx := ended }) ∧
      (∀ seq, b.kind = .journal seq →
        z.byteTime = { y with ltx := ended, wires := { y.wires with sendEnd := true } } ∧
        (s.wires.sendEnd = false → s.wires.sendReport = false →
          exec .sendEnd { z with ltx := { z.ltx with byteDue := true } } = exec .sendEnd z.byteTime))) ∧
    (∀ c rest, s.ltx.abortBytes = c :: rest → s.byteTime = { s with
      ltx := { s.ltx with abortBytes := rest, byteDue := false, lastByte := some c } }) ∧
    (s.ltx.abortBytes = [] → s.ltx.body = none → exec .frameBoundary s = nextOf s.chooseBody ∧
      s.byteTime = if s.chooseBody.ltx.body = none then s.chooseBody else s.chooseBody.byteTime)

/-! ### Cold reset -/

/-- COLD_RESET leaves every register at the value of the columns 'After cold reset' (R18, R40, R83, R88, R92, R93, R101, R107,
R119, R129, R131, R149, R171), the filtered levels at the pin levels when RESET_N rises, and no message waiting. The model's
own are: the shift in use, `tickDue`, `byteClk`, `byteDue`, `lastByte` (log 2), the codes in use and `choices`, which stays
(log 24), the GET-STATUS being executed, none (log 28), the held responses, empty (log 14), the requests issued, none (log 15),
no frame-received report (log 10), no block behind in a change of the link state (log 22), and the queue, which stays (log 21).
-/
def Obligations.ColdResetValues : Prop :=
  ∀ (p : Pins) (s : State), exec (.coldReset p) s = .next
    { path := { state := .idle, tracking := [], stallTimer := none, stallLimit := 100, held := [], issued := [],
                writesRefused := 0, stallExpiries := 0, writeFailures := 0, unmatchedResponses := 0 }
      wtab := { entries := Vector.replicate 16 (
        { valid := false, base := 0x00000000, limit := 0x00000003, kinds := .writes, sourceValue := 0, sourceMask := 0,
          writeForm := .none, readForm := .none, lossPolicy := .drop, freezable := false, refusal := .error,
          closeAfter := false, hitCount := 0 }) }
      jctl := { frames := [], openFrame := none, nextSeq := 0, epoch := 0, pendingLoss := 0, idleTimer := none,
                frameLimit := 1024, idleClose := 200, recordsAppended := 0, recordsLost := 0, framesClosed := 0 }
      tbs := { tickShift := 10, shiftInUse := 10, prescaler := 0, tickDue := false, time := 0 }
      mrk := { filters := ⟨⟨p.mark0, 0⟩, ⟨p.mark1, 0⟩, ⟨p.mark2, 0⟩, ⟨p.mark3, 0⟩⟩, filterCode := 2,
               codeInUse := 2, markers := ⟨0, 0, 0, 0⟩ }
      frzu := { filter := ⟨p.frz, 0⟩, filterCode := 2, codeInUse := 2, commandFreeze := false }
      lrx := { rx := .notDecoding, settleCount := 0, settleCode := 3, discards := ⟨0, 0, 0, 0, 0, 0⟩ }
      lctl := { link := .down, silenceTimer := none, helloTimer := none, helloInterval := 50, silenceLimit := 1000 }
      ltx := { body := none, bytesSent := 0, escapeSent := false, check := 0xFFFF, abortBytes := [],
               helloPending := false, byteClk := 0, byteDue := true, lastByte := none, retransmitted := 0 }
      dlv := { deliveryOpen := false, ackTimer := none, sendWindow := 8, ackTimeout := 400, retryLimit := 4, range := 0 }
      cmd := { execState := .ready, reading := none, replies := [], lastTag := none, commandsDiscarded := 0 }
      alr := { flags := 0, enable := 63 }
      pins := p
      wires := { claims := [], spaceFreed := 0, retryReports := 0, handedOn := none, frameReport := false
                 falling := { lrx := false, ltx := false, dlv := false, cmd := false, alr := false }
                 upHello := none, sendEnd := false, sendReport := false }
      pending := s.pending
      choices := s.choices }

/-- The state after reset is sound, whatever the pin levels; State.reset is the one with all of them low (log 3). -/
def Obligations.ResetStateIsSound : Prop :=
  (∀ p : Pins, (State.afterReset p).Sound) ∧ State.reset = State.afterReset ⟨false, false, false, false, false⟩

/-! ### Invariants -/

/-- What the manual says holds of the part at all times is kept by every step, from every state in which it holds (R2, R22 to
R26, R30, R58 to R61, R64, R84, R103, R104, R107, R119, R122, R127, R134 to R136, R142, R146, R149, R167). Of the parts of
`State.Sound`, these are the model's own: execution state READY but for a GET-STATUS being executed (log 19, log 28), the
held responses and the requests issued (log 14, log 15), the place kept for a request whose claim is unanswered (log 6), the
marks of the clock (log 2), of the changes of the link state (log 22) and of the send end (log 12), the body that waits (log 9),
and the line state between bodies and in an abort (log 25, log 27). -/
def Obligations.SoundIsKept : Prop :=
  ∀ s t : State, s.Sound → step s = .next t → t.Sound

/-- Every parameter stays in its range (R160, R167), and every stored window stays aligned and not empty (R2, R15). -/
def Obligations.ConfigurationStaysInRange : Prop :=
  ∀ s t : State, step s = .next t →
    (s.paramsInRange → t.paramsInRange) ∧ (s.windowsSound → t.windowsSound)

/-- The frame list keeps its order, its consecutive sequences and its bounds (R58 to R61), and only the oldest held frame has
a retry count other than 0 (R142). -/
def Obligations.JournalStaysSound : Prop :=
  ∀ s t : State, s.paramsInRange → s.jctl.sound → s.jctl.onlyOldestRetried → step s = .next t →
    t.jctl.sound ∧ t.jctl.onlyOldestRetried

/-- At most 16 frames are out, the acknowledgment timer runs only while a SENT frame is held; while the link is not UP nothing
is out once the delivery controller has taken the entry to DOWN, and nothing waits in the reply queue once the command unit
has (the units' own events, log 22); and the queue never holds more than 4 replies (R127, R134, R136, R142, R146, R149). That
the unit is READY but for a GET-STATUS being executed is the model's (log 19, log 28). -/
def Obligations.DeliveryStaysSound : Prop :=
  ∀ s t : State, s.paramsInRange → s.entrySound → s.quietUnlessUp → s.deliverySound → s.commandsSound → step s = .next t →
    t.quietUnlessUp ∧ t.deliverySound ∧ t.commandsSound

/-- The receiver decodes exactly while the link is not DOWN and until it takes the entry to DOWN, each link state has its timers
running, HELLO is pending in TRAINING and until the transmitter takes the entry to DOWN, and the settle count stays below the
settle figure while the receiver counts (R107, R108, R119, R122, R127, Table 7-2). The line and the clock stay as Table 6-2
and Table 5-3 bound them (R84, R103, R104). An entry to DOWN that a block has not taken is that of the DOWN in which the link
stands, one to UP that of its UP, and in TRAINING no GET-STATUS is executed and of the bodies only a HELLO waits (log 9, log 22,
log 28). The line state between bodies and in an abort is the model's (log 25, log 27), and so are the marks of the clock (log 2). -/
def Obligations.LinkStaysSound : Prop :=
  ∀ s t : State, s.paramsInRange → s.receiverSound → s.linkTimersSound → s.settleSound → s.entrySound → step s = .next t →
    t.receiverSound ∧ t.linkTimersSound ∧ t.settleSound ∧ t.entrySound ∧
    (s.lineSound → t.lineSound) ∧ (s.clockSound → t.clockSound)

/-- The tracking list keeps its bound and its order, responses are held back only behind a head that answers, the requests
issued are those that await an answer, and the stall timer runs exactly in HOLD (R22 to R26, R30, Table 2-3). The held
responses, the requests issued and the place kept for a request whose claim is unanswered are the model's (log 14, log 15,
log 6). -/
def Obligations.PathStaysSound : Prop :=
  ∀ s t : State, s.trackingSound → s.portsSound → s.stallSound → step s = .next t →
    t.trackingSound ∧ t.portsSound ∧ t.stallSound

/-! ### What leaves what alone -/

/-- The watch table's fields change only by SET_ENTRY and CLEAR_TABLE, its hit counts by these and by REQUEST_TAKEN, and the
parameters only by SET_PARAM, but for COLD_RESET (R1, R14, R18, R167). An UNKNOWN_COMMAND_CODE that carries one of these codes
counts as that command (log 23), and so does a downlink byte while a body with that code waits (R110, log 9). -/
def Obligations.ConfigurationChangesOnlyByCommand : Prop :=
  ∀ (i : Instr) (s t : State), exec i s = .next t → (∀ p, i ≠ .coldReset p) →
    (carriesCode 0x02 i s = false → carriesCode 0x03 i s = false →
      (∀ k : Fin 16, { t.wtab.entries[k] with hitCount := s.wtab.entries[k].hitCount } = s.wtab.entries[k]) ∧
      ((∀ r, i ≠ .requestTaken r) → t.wtab = s.wtab)) ∧
    (carriesCode 0x05 i s = false → ∀ p : Param, t.paramValue p = s.paramValue p)

/-- The commands of the memory path and of the journal controller leave the timebase, the inputs, freeze, the link and the
command unit alone, and they never touch a frame that is closed (R72). The commands of the record link and of delivery leave
the memory path, the watch table, the inputs and freeze alone, but for a downlink byte while a command of the recorder waits
(R110, log 9) or a GET-STATUS is being executed (R155, log 28), and the number of choices drawn does not fall (log 24); of the
journal they touch nothing but the frames' state, sent-before and retry count, and remove frames from the oldest end alone; of
the alert flags they set LINE and LINK alone (R72, R77, R79, R128). A moment for the owners of a GET-STATUS being executed
comes after each command and does not belong to it (R176, log 28). -/
def Obligations.PathAndLinkCommandsKeepApart : Prop :=
  ∀ (i : Instr) (s : State), ∃ t, exec i s = nextOf t ∧
    (isPathCommand i = true →
      t.tbs = s.tbs ∧ t.mrk = s.mrk ∧ t.frzu = s.frzu ∧ t.lrx = s.lrx ∧ t.lctl = s.lctl ∧ t.ltx = s.ltx ∧
      t.dlv = s.dlv ∧ t.cmd = s.cmd ∧ t.pins = s.pins ∧ t.choices = s.choices ∧
      { t.wires with claims := s.wires.claims, spaceFreed := s.wires.spaceFreed } = s.wires ∧ t.alr.enable = s.alr.enable ∧
      t.jctl.epoch = s.jctl.epoch ∧ s.jctl.frames <+: t.jctl.frames) ∧
    (isLinkCommand i s = true →
      t.path = s.path ∧ t.wtab = s.wtab ∧ t.tbs = s.tbs ∧ t.mrk = s.mrk ∧ t.frzu = s.frzu ∧ t.pins = s.pins ∧
      s.choices ≤ t.choices ∧ t.wires.claims = s.wires.claims ∧ t.cmd.lastTag = s.cmd.lastTag ∧ t.alr.enable = s.alr.enable ∧
      (∃ m : BitVec 6, t.alr.flags = s.alr.flags ||| (m &&& 0b001100)) ∧
      { t.jctl with frames := s.jctl.frames } = s.jctl ∧
      t.jctl.frames.map (fun f => (f.seq, f.baseTime, f.records, f.closeCause)) <:+
        s.jctl.frames.map (fun f => (f.seq, f.baseTime, f.records, f.closeCause)))

/-- An alert flag stays set until CLEAR_ALERTS or cold reset (R169), and no counter of Table 10-3 falls until GET_STATUS or
cold reset (R173, R175). A downlink byte while such a command waits counts as that command (R110, log 9), and so does any
command while a GET-STATUS that clears is being executed (R176, log 28). -/
def Obligations.AlertsAndCountersAreKept : Prop :=
  ∀ (i : Instr) (s t : State), exec i s = .next t → (∀ p, i ≠ .coldReset p) →
    (carriesCode 0x07 i s = false → s.alr.flags &&& ~~~t.alr.flags = 0) ∧
    (carriesCode 0x06 i s = false → (∀ r, s.cmd.reading = some r → r.clear = false) →
      List.Forall₂ (· ≤ ·) s.counters t.counters)

/-! ### Watch table -/

/-- A window overlaps a request exactly when some byte address lies in both (R8); for a request that does not wrap, exactly
when its first byte is at or below limit and its last at or above base; byte enables take no part. -/
def Obligations.WindowOverlapsOnCommonByte : Prop :=
  ∀ (base limit : Addr) (r : Request), base ≤ limit →
    (windowOverlaps base limit r = true ↔
      ∃ j < 4 * r.beatCount, base ≤ r.address + BitVec.ofNat 32 j ∧ r.address + BitVec.ofNat 32 j ≤ limit) ∧
    (r.address.toNat + 4 * r.beatCount ≤ 2 ^ 32 →
      (windowOverlaps base limit r = true ↔
        r.address ≤ limit ∧ base ≤ r.address + BitVec.ofNat 32 (4 * r.beatCount - 1))) ∧
    (∀ enables : List (BitVec 4), windowOverlaps base limit { r with enables := enables } = windowOverlaps base limit r)

/-- A source matches exactly when it agrees with the source value in every bit set in the mask (R3); mask 0 matches every
source, mask 15 the one equal source; value bits under clear mask bits have no effect, are stored as written and returned. -/
def Obligations.SourceMatchComparesMaskedBits : Prop :=
  (∀ value mask source : BitVec 4,
    (sourceMatches value mask source = true ↔ ∀ i < 4, mask.getLsbD i = true → source.getLsbD i = value.getLsbD i)) ∧
  (∀ value source : BitVec 4,
    sourceMatches value 0 source = true ∧ (sourceMatches value 15 source = true ↔ source = value)) ∧
  (∀ value other mask source : BitVec 4, (∀ i < 4, mask.getLsbD i = true → value.getLsbD i = other.getLsbD i) →
    sourceMatches value mask source = sourceMatches other mask source) ∧
  (∀ (args : List Byte) (e : WatchEntry) (k : Byte), entryOfArgs args = some e →
    (entryData k e)[11]? = some (argByte args 11))

/-- The governing entry is the one of lowest index that is valid, overlaps the request, admits its kind and matches its
source; with none, the request is unwatched (R1, R7). -/
def Obligations.LowestQualifyingEntryGoverns : Prop :=
  ∀ (t : WatchTable) (r : Request),
    let meets : WatchEntry → Prop := fun e => e.valid = true ∧ windowOverlaps e.base e.limit r = true ∧
      (e.kinds = .both ∨ (e.kinds = .writes ∧ r.kind = .write) ∨ (e.kinds = .reads ∧ r.kind = .read)) ∧
      sourceMatches e.sourceValue e.sourceMask r.source = true
    (∀ (e : WatchEntry) (k : Nat), t.governing r = some (e, k) ↔
      t.entries[k]? = some e ∧ meets e ∧ ∀ (j : Nat) (d : WatchEntry), j < k → t.entries[j]? = some d → ¬ meets d) ∧
    (t.governing r = none ↔ ∀ (j : Nat) (d : WatchEntry), t.entries[j]? = some d → ¬ meets d)

/-- An accepted SET_ENTRY reads back from GET_ENTRY as the 18 bytes written and a hit count of 0, and the bytes of any entry,
written, give the entry with hit count 0 (Table 6-16, R16, R157). -/
def Obligations.EntryLayoutRoundTrips : Prop :=
  (∀ (args : List Byte) (t u : WatchTable), args.length = 18 → t.setEntry args = (u, .ok) →
    ∃ e, u.entries[(argByte args 0).toNat]? = some e ∧ entryData (argByte args 0) e = args ++ [0x00, 0x00]) ∧
  (∀ (k : Byte) (e : WatchEntry), (entryData k e).length = 20 ∧
    entryOfArgs ((entryData k e).take 18) = some { e with hitCount := 0 })

/-! ### Records -/

/-- A record's bytes are as many as its length, its second byte is that length, and a length is 6 to 154 (R41, R55, R114,
Tables 3-9, 6-13 and 6-14). -/
def Obligations.RecordBytesMatchLength : Prop :=
  ∀ r : Record, (recordBytes r).length = recordLength r.body ∧ 6 ≤ recordLength r.body ∧ recordLength r.body ≤ 154 ∧
    ((recordBytes r)[1]?.map BitVec.toNat) = some (recordLength r.body)

/-- The packed records of a JOURNAL body can be read back: two runs of records whose lists have one member for each
beat, with the same bytes, are the same records (section 6.6). -/
def Obligations.JournalBytesDetermineRecords : Prop :=
  ∀ l m : List Record, (∀ r ∈ l, r.body.complete = true) → (∀ r ∈ m, r.body.complete = true) →
    l.flatMap recordBytes = m.flatMap recordBytes → l = m

/-! ### Claims -/

/-- How a claim is decided (R63 to R67, R69): a fitting OPEN frame with store space takes it; an OPEN frame it does not fit is
closed with AGE or LIMIT and the claim goes on; with no OPEN frame it opens a frame when fewer than 32 are held and the
store has the space; otherwise NO-SPACE, a loss under DROP and no count under HOLD. Close options: the next statement. -/
def Obligations.ClaimIsDecidedByTests : Prop :=
  ∀ (now : BitVec 32) (c : Claim) (j : Journal),
    let need := recordLength c.body + if j.pendingLoss = 0 then 0 else 8
    let placed := fun (offset : BitVec 16) =>
      (if j.pendingLoss = 0 then [] else [Record.mk (.loss j.pendingLoss) offset]) ++ [Record.mk c.body offset]
    let appended := if j.pendingLoss = 0 then satInc j.recordsAppended else satInc (satInc j.recordsAppended)
    let timer := if j.idleClose = 0 then none else some j.idleClose
    let noSpace := if c.policy = .drop
      then { j with pendingLoss := satInc j.pendingLoss, recordsLost := satInc j.recordsLost } else j
    (∀ f, j.openFrame = some f → f.age ≤ 65535 → bytesOf f.records + need ≤ j.frameLimit →
      (need ≤ 16384 - j.storeUsed → c.close = .none →
        j.take now c = ({ j with openFrame := some { f with records := f.records ++ placed (BitVec.ofNat 16 f.age) }
                                 pendingLoss := 0, recordsAppended := appended, idleTimer := timer }, .appended)) ∧
      (16384 - j.storeUsed < need → j.take now c = (noSpace, .noSpace))) ∧
    (∀ f, j.openFrame = some f → (65535 < f.age ∨ j.frameLimit < bytesOf f.records + need) →
      j.take now c = Journal.take now c { j with
        frames := j.frames ++ [{ seq := f.seq, state := .closed, baseTime := f.baseTime, records := f.records,
                                 closeCause := if 65535 < f.age then .age else .limit, sentBefore := false,
                                 retryCount := 0 }]
        openFrame := none, idleTimer := none, framesClosed := satInc j.framesClosed }) ∧
    (j.openFrame = none →
      (j.frames.length < 32 → need ≤ 16384 - j.storeUsed → c.close = .none →
        j.take now c = ({ j with openFrame := some { seq := j.nextSeq, baseTime := now, age := 0, records := placed 0 }
                                 nextSeq := j.nextSeq + 1, pendingLoss := 0, recordsAppended := appended
                                 idleTimer := timer }, .appended)) ∧
      (32 ≤ j.frames.length ∨ 16384 - j.storeUsed < need → j.take now c = (noSpace, .noSpace)))

/-- An appended claim with close option ENTRY or MARK closes, with that cause, the frame that holds its record (R68); an answer
NO-SPACE closes nothing on the option's account; otherwise the claim does what it would without the option. -/
def Obligations.CloseOptionClosesTheFrame : Prop :=
  ∀ (now : BitVec 32) (c : Claim) (j : Journal), c.close ≠ .none →
    let plain := j.take now { c with close := .none }
    (j.take now c).2 = plain.2 ∧
    (plain.2 = .noSpace → (j.take now c).1 = plain.1) ∧
    (plain.2 = .appended → ∃ f, plain.1.openFrame = some f ∧ (∃ o, f.records.getLast? = some ⟨c.body, o⟩) ∧
      (j.take now c).1 = { plain.1 with
        frames := plain.1.frames ++ [{ seq := f.seq, state := .closed, baseTime := f.baseTime, records := f.records,
                                       closeCause := if c.close = .entry then .entry else .mark, sentBefore := false,
                                       retryCount := 0 }]
        openFrame := none, idleTimer := none, framesClosed := satInc plain.1.framesClosed })

/-- APPEND_CLAIM takes the oldest waiting claim of the claimant, whole, and sets LOSS when the record is lost under DROP (R56,
R63, R69); with none waiting nothing changes, but for the path controller's claim for its request in hand, which is taken last
(CapturedRequestIsClaimedFirst; log 5, log 6). The claim of a block that waits for its answer, `State.claim`, does the same:
`Journal.take` at the time counter, and LOSS exactly on NO-SPACE under DROP (R33, R69, R164). The owners of a GET-STATUS in
execution may answer after the command (R176; log 28). -/
def Obligations.AppendClaimTakesOldestOfClaimant : Prop :=
  ∀ (who : Claimant) (s : State),
    (∀ (before after : List WaitingClaim) (c : Claim), s.wires.claims = before ++ ⟨who, c⟩ :: after →
      (∀ w ∈ before, w.claimant ≠ who) →
      exec (.appendClaim who) s = nextOf { s with
        wires := { s.wires with claims := before ++ after }
        jctl := (s.jctl.take s.tbs.time c).1
        alr := if (s.jctl.take s.tbs.time c).2 = .noSpace ∧ c.policy = .drop
               then { s.alr with flags := s.alr.flags ||| 0b000001 } else s.alr }) ∧
    ((∀ w ∈ s.wires.claims, w.claimant ≠ who) → (who = .path → ∀ r a body, s.path.state ≠ .claiming r a body) →
      exec (.appendClaim who) s = nextOf s) ∧
    (∀ c : Claim, s.claim c = ({ s with
      jctl := (s.jctl.take s.tbs.time c).1
      alr := if (s.jctl.take s.tbs.time c).2 = .noSpace ∧ c.policy = .drop
             then { s.alr with flags := s.alr.flags ||| 0b000001 } else s.alr }, (s.jctl.take s.tbs.time c).2))

/-! ### Memory path -/

/-- A request taken in IDLE with a place free is forwarded at once, unchanged and uncaptured, when it is unwatched (R11) or
when its entry's form is NONE and it is not refused, with the hit count of its entry (R4, R10, R14, R21, R24, R38). The owners
of a GET-STATUS in execution may answer after the command (R176; log 28). -/
def Obligations.UncapturedRequestIsForwarded : Prop :=
  ∀ (r : Request) (s : State), s.path.state = .idle → s.path.tracking.length < 8 → s.portsSound →
    (s.wtab.governing r = none →
      exec (.requestTaken r) s = nextOf { s with path := { s.path with
        tracking := s.path.tracking ++ [⟨.unwatched, r.kind, r.source, r.address, r.beatsLess1, .waiting⟩]
        issued := s.path.issued ++ [r] } }) ∧
    (∀ (e : WatchEntry) (k : Nat), s.wtab.governing r = some (e, k) →
      (r.kind = .write → e.writeForm = .none ∧ (e.freezable = false ∨ s.frzu.effective = false)) →
      (r.kind = .read → e.readForm = .none) →
      exec (.requestTaken r) s = nextOf { s with
        wtab := s.wtab.put k { e with hitCount := satInc e.hitCount }
        path := { s.path with
          tracking := s.path.tracking ++
            [⟨.forwarded (BitVec.ofNat 4 k) false, r.kind, r.source, r.address, r.beatsLess1, .waiting⟩]
          issued := s.path.issued ++ [r] } })

/-- A request taken while the list holds 8 items is classified and waits in WAIT-SLOT (R7, R21, R22); in any state but IDLE no
request is taken (R21, log 13). The owners of a GET-STATUS in execution may answer after the command (R176; log 28). -/
def Obligations.RequestWaitsForAPlace : Prop :=
  ∀ (r : Request) (s : State),
    (s.path.state = .idle → 8 ≤ s.path.tracking.length →
      (s.wtab.governing r = none →
        exec (.requestTaken r) s = nextOf { s with path := { s.path with state := .waitSlot ⟨r, none⟩ } }) ∧
      (∀ (e : WatchEntry) (k : Nat), s.wtab.governing r = some (e, k) →
        exec (.requestTaken r) s = nextOf { s with
          wtab := s.wtab.put k { e with hitCount := satInc e.hitCount }
          path := { s.path with state := .waitSlot ⟨r, some
            { entry := BitVec.ofNat 4 k
              form := match r.kind, e.readForm with
                | .write, _ => e.writeForm
                | .read, .address => .address
                | .read, .none => .none
              lossPolicy := e.lossPolicy
              refused := decide (r.kind = .write) && e.freezable && (s.frzu.commandFreeze || s.frzu.filter.level)
              refusal := e.refusal, closeAfter := e.closeAfter }⟩ } })) ∧
    (s.path.state ≠ .idle → exec (.requestTaken r) s = nextOf s)

/-- A write to a freezable entry while the effective freeze state is on is answered by the part: a LOCAL item, which answers at
once when it is alone in the list, a REFUSED record claimed under DROP with the entry's close-after, and the counter; it is
never issued downstream (R10, R24, R26, R32, R48). The claim waits until APPEND_CLAIM or a CLK period takes it, so claims of
other blocks may be taken before it (R56; log 5, log 6). The owners of a GET-STATUS in execution may answer after the command
(R176; log 28). -/
def Obligations.RefusedWriteIsAnsweredLocally : Prop :=
  ∀ (r : Request) (s : State) (e : WatchEntry) (k : Nat),
    s.path.state = .idle → s.path.tracking.length < 8 → s.portsSound →
    s.wtab.governing r = some (e, k) → r.kind = .write → e.freezable = true → s.frzu.effective = true →
    let status : Status := if e.refusal = .error then .error else .okay
    exec (.requestTaken r) s = nextOf { s with
      wtab := s.wtab.put k { e with hitCount := satInc e.hitCount }
      wires := { s.wires with claims := s.wires.claims ++ [⟨.path,
        { body := .refused (BitVec.ofNat 4 k) r.source r.beatsLess1 r.address r.enables, policy := .drop
          close := if e.closeAfter then .entry else .none }⟩] }
      path := { s.path with
        tracking := if s.path.tracking = []
          then [⟨.local status, .write, r.source, r.address, r.beatsLess1, .answering ⟨status, []⟩⟩]
          else s.path.tracking ++ [⟨.local status, .write, r.source, r.address, r.beatsLess1, .waiting⟩]
        writesRefused := satInc s.path.writesRefused } }

/-- A captured request that needs no before-image has its record claimed first, under its entry's policy and close-after (R33,
R44 to R47). The claim stands behind the path controller's REFUSED claims that wait, and claims of other blocks may be taken
before it (R39, R56; log 5, log 6). Once it is taken, the request is forwarded captured on APPENDED, forwarded not captured on
NO-SPACE under DROP, and held with the stall timer started on NO-SPACE under HOLD (R33, R34, R38). The owners of a GET-STATUS
in execution may answer after the command (R176; log 28). -/
def Obligations.CapturedRequestIsClaimedFirst : Prop :=
  (∀ (r : Request) (s : State) (e : WatchEntry) (k : Nat) (body : RecordBody),
    s.path.state = .idle → s.path.tracking.length < 8 → s.portsSound → s.wtab.governing r = some (e, k) →
    ((r.kind = .write ∧ (e.freezable = false ∨ s.frzu.effective = false) ∧ e.writeForm = .address ∧
        body = .write (BitVec.ofNat 4 k) r.source r.beatsLess1 r.address r.enables .address) ∨
     (r.kind = .write ∧ (e.freezable = false ∨ s.frzu.effective = false) ∧ e.writeForm = .after ∧
        body = .write (BitVec.ofNat 4 k) r.source r.beatsLess1 r.address r.enables (.after r.data)) ∨
     (r.kind = .read ∧ e.readForm = .address ∧
        body = .read (BitVec.ofNat 4 k) r.source r.beatsLess1 r.address)) →
    exec (.requestTaken r) s = nextOf { s with
      wtab := s.wtab.put k { e with hitCount := satInc e.hitCount }
      path := { s.path with
        state := .claiming r { entry := BitVec.ofNat 4 k
                               form := if e.writeForm = .after ∧ r.kind = .write then .after else .address
                               lossPolicy := e.lossPolicy, refused := false, refusal := e.refusal
                               closeAfter := e.closeAfter } body } }) ∧
  (∀ (r : Request) (a : Attributes) (body : RecordBody) (s : State), s.path.state = .claiming r a body →
    (∀ w ∈ s.wires.claims, w.claimant ≠ .path) →
    let c := State.claim { body := body, policy := a.lossPolicy, close := if a.closeAfter then .entry else .none } s
    let forwarded := fun (captured : Bool) => { c.1 with path := { s.path with
      state := .idle
      tracking := s.path.tracking ++
        [⟨.forwarded a.entry captured, r.kind, r.source, r.address, r.beatsLess1, .waiting⟩]
      issued := s.path.issued ++ [r] } }
    (c.2 = .appended → exec (.appendClaim .path) s = nextOf (forwarded true)) ∧
    (c.2 = .noSpace → a.lossPolicy = .drop → exec (.appendClaim .path) s = nextOf (forwarded false)) ∧
    (c.2 = .noSpace → a.lossPolicy = .hold → exec (.appendClaim .path) s = nextOf { c.1 with path := { s.path with
      state := .hold r a body, stallTimer := some s.path.stallLimit } }))

/-- A write of form BOTH that is not refused has its before-image read issued first, with its address, beats and source, and a
PRE-READ item; the write itself is not yet issued (R30). The owners of a GET-STATUS in execution may answer after the command
(R176; log 28). -/
def Obligations.FormBothReadsMemoryFirst : Prop :=
  ∀ (r : Request) (s : State) (e : WatchEntry) (k : Nat),
    s.path.state = .idle → s.path.tracking.length < 8 → s.portsSound → s.wtab.governing r = some (e, k) →
    r.kind = .write → (e.freezable = false ∨ s.frzu.effective = false) → e.writeForm = .both →
    exec (.requestTaken r) s = nextOf { s with
      wtab := s.wtab.put k { e with hitCount := satInc e.hitCount }
      path := { s.path with
        state := .preRead r { entry := BitVec.ofNat 4 k, form := .both, lossPolicy := e.lossPolicy, refused := false
                              refusal := e.refusal, closeAfter := e.closeAfter }
        tracking := s.path.tracking ++ [⟨.preRead, .read, r.source, r.address, r.beatsLess1, .waiting⟩]
        issued := s.path.issued ++ [⟨.read, r.address, r.beatsLess1, r.source, [], []⟩] } }

/-- The response to the before-image read is consumed and its item removed; the WRITE record is claimed with the before-image,
or with the pre-read-failed mark on ERROR, and the write goes on as any captured request (R31, R33, R45; the claim, and what
follows it, is the statement CapturedRequestIsClaimedFirst; log 6). The owners of a GET-STATUS in execution may answer after
the command (R176; log 28). -/
def Obligations.BeforeImageEntersTheRecord : Prop :=
  ∀ (resp : Response) (s : State) (r : Request) (a : Attributes) (it : Item),
    s.path.state = .preRead r a → s.path.tracking = [it] → it.cls = .preRead → it.phase = .waiting → s.path.held = [] →
    r.kind = .write → a.form = .both →
    let body : RecordBody := .write a.entry r.source r.beatsLess1 r.address r.enables
      (if resp.status = .okay then .both r.data resp.data else .bothFailed r.data)
    exec (.downstreamResponse resp) s = nextOf { s with path := { s.path with
      state := .claiming r a body, tracking := [], issued := s.path.issued.drop 1 } }

/-- A response for a FORWARDED head is offered upstream unchanged (R25 to R27); on ERROR for a captured write a FAILED record
is claimed under DROP (it waits: log 5), FAILED is set and the failure counted, and for nothing else (R39); behind a head that
answers the response is held back (R25). The owners of a GET-STATUS in execution may answer after the command (R176; log 28).
-/
def Obligations.ResponseMeetsTheHead : Prop :=
  ∀ (r : Response) (s : State) (it : Item) (rest : List Item), s.trackingSound → s.portsSound →
    s.path.tracking = it :: rest →
    let offered := { s.path with tracking := { it with phase := .answering r } :: rest, issued := s.path.issued.drop 1 }
    (it.phase = .waiting → (it.cls = .unwatched ∨ ∃ entry captured, it.cls = .forwarded entry captured) →
      (r.status = .okay ∨ it.kind = .read ∨ ∀ entry, it.cls ≠ .forwarded entry true) →
      exec (.downstreamResponse r) s = nextOf { s with path := offered }) ∧
    (∀ entry, it.phase = .waiting → it.cls = .forwarded entry true → it.kind = .write → r.status = .error →
      exec (.downstreamResponse r) s = nextOf { s with
        path := { offered with writeFailures := satInc s.path.writeFailures }
        wires := { s.wires with claims := s.wires.claims ++
          [⟨.failed, { body := .failed entry it.source it.beatsLess1 it.address, policy := .drop, close := .none }⟩] }
        alr := { s.alr with flags := s.alr.flags ||| 0b010000 } }) ∧
    (∀ x, it.phase = .answering x →
      exec (.downstreamResponse r) s = nextOf { s with path := { s.path with held := s.path.held ++ [r] } })

/-- A response that arrives while the list is empty is discarded and counted; while it holds LOCAL items alone it is held back;
held responses are counted once the list becomes empty, and so when the response to a before-image read leaves it empty with
its write not yet forwarded (log 29); counters of 16 and of 32 bits, and the pending loss count with them, stop at their
largest value (R28, R71, R173). The owners of a GET-STATUS in execution may answer after the command (R176; log 28). -/
def Obligations.UnmatchedResponseIsCounted : Prop :=
  ∀ (r : Response) (s : State), s.trackingSound → s.portsSound →
    (s.path.tracking = [] → exec (.downstreamResponse r) s = nextOf
      { s with path := { s.path with unmatchedResponses := satInc s.path.unmatchedResponses } }) ∧
    (s.path.tracking ≠ [] → (∀ it ∈ s.path.tracking, ∃ st, it.cls = .local st) →
      exec (.downstreamResponse r) s = nextOf { s with path := { s.path with held := s.path.held ++ [r] } }) ∧
    (∀ (it : Item) (x : Response), s.path.tracking = [it] → it.phase = .answering x →
      exec .responseAccepted s = nextOf { s with path := { s.path with
        tracking := [], held := []
        unmatchedResponses := s.path.held.foldl (fun n _ => satInc n) s.path.unmatchedResponses } }) ∧
    (∀ (it pre : Item) (x y : Response) (more : List Response) (q : Request) (a : Attributes),
      s.path.tracking = [it, pre] → it.phase = .answering x → pre.cls = .preRead → s.path.state = .preRead q a →
      q.kind = .write → a.form = .both → s.path.held = y :: more →
      exec .responseAccepted s = nextOf { s with path := { s.path with
        state := .claiming q a (.write a.entry q.source q.beatsLess1 q.address q.enables
          (if y.status = .okay then .both q.data y.data else .bothFailed q.data))
        tracking := [], held := [], issued := s.path.issued.drop 1
        unmatchedResponses := more.foldl (fun n _ => satInc n) s.path.unmatchedResponses } }) ∧
    (satInc (65535 : BitVec 16) = 65535 ∧ ∀ n : BitVec 16, n ≠ 65535 → satInc n = n + 1) ∧
    (satInc (0xFFFFFFFF : BitVec 32) = 0xFFFFFFFF ∧ ∀ n : BitVec 32, n ≠ 0xFFFFFFFF → satInc n = n + 1)

/-- The accepted response's item is removed and the next head evaluated: a LOCAL head answers; another head takes the
responses held at the port, in their order, as if they arrived now; then WAIT-SLOT ends and the handling goes on (R22, R25,
R26, R29; that the two come in this order is the model's, log 20), with no moment between them for the owners of a GET-STATUS
(log 28). With no response offered nothing changes (log 13). -/
def Obligations.AcceptedResponseFreesThePlace : Prop :=
  ∀ s : State, s.trackingSound → s.portsSound →
    (∀ (it : Item) (rest : List Item) (x : Response), s.path.tracking = it :: rest → it.phase = .answering x →
      let removed := { s with path := { s.path with tracking := rest } }
      let arriving := execAll (s.path.held.map .downstreamResponse)
        { s with cmd := { s.cmd with reading := none }
                 path := { s.path with state := match s.path.state with | .waitSlot _ => .idle | p => p
                                       tracking := rest, held := [] } }
      ((∀ h, s.path.state ≠ .waitSlot h) →
        (s.path.held = [] → (∀ st, rest.head?.map (·.cls) ≠ some (.local st)) → exec .responseAccepted s = nextOf removed) ∧
        (∀ (st : Status) (head : Item) (more : List Item), rest = head :: more → head.cls = .local st →
          exec .responseAccepted s = nextOf { s with path := { s.path with
            tracking := { head with phase := .answering ⟨st, []⟩ } :: more } }) ∧
        (s.path.held ≠ [] → (∀ st, rest.head?.map (·.cls) ≠ some (.local st)) →
          ∀ t, arriving = .next t → exec .responseAccepted s = nextOf { t with cmd := s.cmd })) ∧
      (∀ h : InHand, s.path.state = .waitSlot h →
        (s.path.held = [] → (∀ st, rest.head?.map (·.cls) ≠ some (.local st)) →
          exec .responseAccepted s = nextOf (removed.handle h)) ∧
        (∀ (st : Status) (head : Item) (more : List Item), rest = head :: more → head.cls = .local st →
          exec .responseAccepted s = nextOf (State.handle h { s with path := { s.path with
            tracking := { head with phase := .answering ⟨st, []⟩ } :: more } })) ∧
        (s.path.held ≠ [] → (∀ st, rest.head?.map (·.cls) ≠ some (.local st)) →
          ∀ t, arriving = .next t →
            exec .responseAccepted s = nextOf
              (State.handle h { t with cmd := s.cmd, path := { t.path with state := .waitSlot h } })))) ∧
    ((∀ it, s.path.tracking.head? = some it → it.phase = .waiting) → exec .responseAccepted s = nextOf s)

/-- HOLD ends when a repeated claim is appended: the stall timer stops and the request is forwarded captured; on NO-SPACE it
stays in HOLD with its timer running (R35). It ends at the stall timer's expiry: the record is lost and counted, LOSS and STALL
are set, and the request is forwarded not captured (R36, R70). Out of HOLD a report has no effect, and neither row has one when
nothing waits or is due (log 7, log 8). The owners of a GET-STATUS in execution may answer after the command (R176; log 28). -/
def Obligations.HoldEndsBySpaceOrExpiry : Prop :=
  ∀ s : State, s.portsSound →
    (∀ (r : Request) (a : Attributes) (body : RecordBody), s.path.state = .hold r a body →
      let forwarded := fun (captured : Bool) => { s.path with
        state := .idle, stallTimer := none
        tracking := s.path.tracking ++
          [⟨.forwarded a.entry captured, r.kind, r.source, r.address, r.beatsLess1, .waiting⟩]
        issued := s.path.issued ++ [r] }
      (∀ n, s.wires.spaceFreed = n + 1 →
        let c := State.claim { body := body, policy := a.lossPolicy, close := if a.closeAfter then .entry else .none }
          { s with wires := { s.wires with spaceFreed := n } }
        (c.2 = .appended → exec .spaceFreedReport s = nextOf { c.1 with path := forwarded true }) ∧
        (c.2 = .noSpace → exec .spaceFreedReport s = nextOf c.1)) ∧
      (s.path.stallTimer = some 0 →
        exec .stallTimerExpiry s = nextOf { s with
          path := { forwarded false with stallExpiries := satInc s.path.stallExpiries }
          jctl := { s.jctl with pendingLoss := satInc s.jctl.pendingLoss, recordsLost := satInc s.jctl.recordsLost }
          alr := { s.alr with flags := s.alr.flags ||| 0b000011 } })) ∧
    ((∀ r a body, s.path.state ≠ .hold r a body) → ∀ n, s.wires.spaceFreed = n + 1 →
      exec .spaceFreedReport s = nextOf { s with wires := { s.wires with spaceFreed := n } }) ∧
    (s.wires.spaceFreed = 0 → exec .spaceFreedReport s = nextOf s) ∧
    (s.path.stallTimer ≠ some 0 → exec .stallTimerExpiry s = nextOf s)

/-! ### Ticks, inputs and timers -/

/-- A TICK before the tick is due lets one CLK period after another pass first, so that a tick comes after 2^k periods of the
shift in use and no sooner (R84, R85, R88; log 2); marker claims and a frame-received report that still wait are taken before
it (R95, R123; log 5, log 10). At the tick the time counter rises and wraps, every running timer of every block has one tick
less to go, the OPEN frame is one tick older up to 65536, and the next tick period takes the TICK-SHIFT now held; the table,
the link receiver, the link transmitter and the command unit are untouched (R64, R84 to R87). The owners of a GET-STATUS in
execution may answer after the command (R176; log 28). -/
def Obligations.TickCountsEverywhere : Prop :=
  ∀ (p : Pins) (s : State),
    (s.tbs.tickDue = false → ∀ t, step { s with pending := [] } = .next t →
      exec (.tick p) s = exec (.tick p) { t with pending := s.pending }) ∧
    (s.tbs.tickDue = true → ∀ (before after : List WaitingClaim) (pin : MarkPin) (c : Claim),
      s.wires.claims = before ++ ⟨.marker pin, c⟩ :: after → (∀ w ∈ before, ∀ q, w.claimant ≠ .marker q) →
      exec (.tick p) s = exec (.tick p) (State.claim c { s with wires := { s.wires with claims := before ++ after } }).1) ∧
    (s.tbs.tickDue = true → exec (.tick p) s = exec (.tick p) s.takeFrameReport) ∧
    (s.tbs.tickDue = true → s.wires.frameReport = false → (∀ w ∈ s.wires.claims, ∀ q, w.claimant ≠ .marker q) →
      ∃ t, exec (.tick p) s = nextOf t ∧
      t.tbs = { s.tbs with time := s.tbs.time + 1, prescaler := 0, tickDue := false, shiftInUse := s.tbs.tickShift } ∧
      t.path = { s.path with stallTimer := s.path.stallTimer.map (· - 1) } ∧
      t.jctl = { s.jctl with idleTimer := s.jctl.idleTimer.map (· - 1)
                             openFrame := s.jctl.openFrame.map (fun f => { f with age := min (f.age + 1) 65536 }) } ∧
      t.lctl = { s.lctl with silenceTimer := s.lctl.silenceTimer.map (· - 1)
                             helloTimer := s.lctl.helloTimer.map (· - 1) } ∧
      t.dlv = { s.dlv with ackTimer := s.dlv.ackTimer.map (· - 1) } ∧
      t.wtab = s.wtab ∧ t.lrx = s.lrx ∧ t.ltx = s.ltx ∧ t.cmd = s.cmd ∧ t.pins = p)

/-- At a tick each of the five filters takes one sample, by its unit's FILTER-CODE; a marker edge that the marker's mode
selects is claimed as a MARK record under DROP with the marker's close option, an edge it does not select as nothing; a change
of the effective freeze state is claimed as a FREEZE record of cause PIN and sets FREEZE when it turns on (R89, R93, R94, R96,
R97). At the tick that meets a new FILTER-CODE each unit goes by the new or the old, which is a free value (R91; log 24). The
claims wait until APPEND_CLAIM takes them (log 5), and a frame-received report that waited has been taken before the tick (log
10). The owners of a GET-STATUS in execution may answer after the command (R176; log 28). -/
def Obligations.TickSamplesTheInputs : Prop :=
  ∀ (p : Pins) (s : State), s.tbs.tickDue = true → (∀ w ∈ s.wires.claims, ∀ q, w.claimant ≠ .marker q) →
    ∃ t, exec (.tick p) s = nextOf t ∧
    let code := fun (tickFirst : Bool) (inUse held : Nat) => if inUse ≠ held ∧ tickFirst = true then inUse else held
    let markerTime := filterTime (code (Config.markersTickFirst s.choices) s.mrk.codeInUse s.mrk.filterCode)
    let freezeTime := filterTime (code (Config.freezeTickFirst s.choices) s.frzu.codeInUse s.frzu.filterCode)
    let sampled := fun (pin : MarkPin) => filterSample markerTime (markLevel p pin) (s.mrk.filters.get pin)
    let frz := filterSample freezeTime p.frz s.frzu.filter
    let before := s.frzu.commandFreeze || s.frzu.filter.level
    let after := s.frzu.commandFreeze || frz.1.level
    let markClaim := fun (pin : MarkPin) (rising : Bool) => WaitingClaim.mk (.marker pin)
      { body := .mark (.pin pin) (if rising then 1 else 2), policy := .drop
        close := if (s.mrk.markers.get pin).getLsbD 2 then .mark else .none }
    let claimsOf := fun (pin : MarkPin) =>
      match (sampled pin).2 with
      | some true  => if (s.mrk.markers.get pin).getLsbD 0 then [markClaim pin true] else []
      | some false => if (s.mrk.markers.get pin).getLsbD 1 then [markClaim pin false] else []
      | none       => []
    t.mrk = { s.mrk with filters := ⟨(sampled .m0).1, (sampled .m1).1, (sampled .m2).1, (sampled .m3).1⟩
                         codeInUse := s.mrk.filterCode } ∧
    t.frzu = { s.frzu with filter := frz.1, codeInUse := s.frzu.filterCode } ∧
    t.wires = { s.wires with
      claims := s.wires.claims ++ claimsOf .m0 ++ claimsOf .m1 ++ claimsOf .m2 ++ claimsOf .m3 ++
        if after = before then [] else [⟨.freezeUnit, { body := .freeze after .pin, policy := .drop, close := .none }⟩]
      frameReport := false } ∧
    t.alr = { s.alr with flags := if after = true ∧ before = false then s.alr.flags ||| 0b100000 else s.alr.flags } ∧
    t.choices = if s.mrk.codeInUse = s.mrk.filterCode ∧ s.frzu.codeInUse = s.frzu.filterCode then s.choices
                else s.choices + 1

/-- A filter changes its level only at the last of an unbroken run of differing samples as long as the filter time of Table
5-4, and hands on one edge then; any sample equal to the level returns the count to 0; off acts as one sample (R90). A count
that a longer filter time has left is kept: at the next differing sample it rises by 1, and the level changes when it then
reaches or passes the time now held (R91). -/
def Obligations.FilterNeedsAFullRun : Prop :=
  ∀ (code : Nat) (f : Filter), code ≤ 7 →
    let time := filterTime code
    let run := if code = 0 then 1 else 2 ^ (code - 1)
    let counted := fun (n : Nat) => ({ f with disagreement := n } : Filter)
    let differing := fun (g : Filter) => filterSample time (!f.level) g
    (∀ n m, n + m < run → (fun g => (differing g).1)^[m] (counted n) = counted (n + m)) ∧
    (∀ n, n + 1 < run → differing (counted n) = (counted (n + 1), none)) ∧
    (∀ n, run ≤ n + 1 → differing (counted n) = (⟨!f.level, 0⟩, some (!f.level))) ∧
    (∀ n, filterSample time f.level (counted n) = (counted 0, none))

/-- When the idle-close timer's expiry is due, the OPEN frame is closed with cause IDLE (R72, R73). When the hello timer's is
due in TRAINING, a HELLO is requested and the timer starts again with HELLO-INTERVAL (R122). Neither row has an effect before
its expiry is due (log 7). The owners of a GET-STATUS in execution may answer after the command (R176; log 28). -/
def Obligations.IdleCloseAndHelloTimersExpire : Prop :=
  ∀ s : State,
    (∀ f, s.jctl.idleTimer = some 0 → s.jctl.openFrame = some f →
      exec .idleCloseTimerExpiry s = nextOf { s with jctl := { s.jctl with
        frames := s.jctl.frames ++ [{ seq := f.seq, state := .closed, baseTime := f.baseTime, records := f.records,
                                      closeCause := .idle, sentBefore := false, retryCount := 0 }]
        openFrame := none, idleTimer := none, framesClosed := satInc s.jctl.framesClosed } }) ∧
    (s.jctl.idleTimer ≠ some 0 → exec .idleCloseTimerExpiry s = nextOf s) ∧
    (s.lctl.helloTimer = some 0 → s.lctl.link = .training →
      exec .helloTimerExpiry s = nextOf { s with
        lctl := { s.lctl with helloTimer := some s.lctl.helloInterval }
        ltx := { s.ltx with helloPending := true } }) ∧
    (s.lctl.helloTimer ≠ some 0 → exec .helloTimerExpiry s = nextOf s)

/-! ### Link states -/

/-- The silence timer's expiry in TRAINING or UP, and a retry-limit report in UP, take the link to DOWN: the timers stop, and
the change is handed to each block, which takes it as an event of its own (R118, R123, R126 to R128, R146), in this step or
later, by a free value (log 22). The receiver decodes no more (R107); the transmitter aborts the body in progress (R105); the
delivery controller, behind the transmitter, closes delivery and has every frame out returned, after a send end that waits, so
that its frame counts as sent before (R127); from UP the reply queue is emptied and LINK is set, and from TRAINING, where no
command is taken, the queue is emptied at once. Everything else stays. With the abort the mark of an awaited second byte, the
bytes sent and the check value go back (log 25, log 27). A retry-limit report out of UP is ignored, and neither row has an
effect when nothing is due or waits (log 7, log 8). A frame-received report that waits when the silence timer has expired is
taken in either order: after the expiry it has no effect, and before it the timer starts again and does not expire (R123; that
it waits: log 10). The owners of a GET-STATUS in execution may answer after the command (R176; log 28). -/
def Obligations.LinkFallsToDown : Prop :=
  let ltxTakes : State → State := fun v => if v.wires.falling.ltx then { v with
      ltx := if v.ltx.body = none then { v.ltx with helloPending := false }
        else { v.ltx with body := none, bytesSent := 0, escapeSent := false, check := 0xFFFF, helloPending := false
                          abortBytes := if v.ltx.escapeSent then [0xC3] else [0xCC, 0xC3] }
      wires := { v.wires with falling := { v.wires.falling with ltx := false } } } else v
  let dlvTakes : State → State := fun v => if v.wires.falling.dlv then
    let x := ltxTakes v
    { x with
      dlv := { x.dlv with deliveryOpen := false, ackTimer := none }
      jctl := { x.jctl with frames := x.jctl.frames.map (fun f => { f with
        state := .closed, sentBefore := f.sentBefore || (x.wires.sendEnd && decide (f.state = .sending)) }) }
      wires := { x.wires with sendEnd := false, sendReport := false, falling := { x.wires.falling with dlv := false } } }
    else v
  let lrxTakes : State → State := fun v => if v.wires.falling.lrx then { v with
      lrx := { v.lrx with rx := .notDecoding, settleCount := 0 }
      wires := { v.wires with falling := { v.wires.falling with lrx := false } } } else v
  let cmdTakes : State → State := fun v => if v.wires.falling.cmd then { v with
      cmd := { v.cmd with replies := [] }
      wires := { v.wires with falling := { v.wires.falling with cmd := false } } } else v
  let alrTakes : State → State := fun v => if v.wires.falling.alr then { v with
      alr := { v.alr with flags := v.alr.flags ||| 0b000100 }
      wires := { v.wires with falling := { v.wires.falling with alr := false } } } else v
  let taken : (Config.LinkBlock → Bool) → State → State := fun of v =>
    let v1 := if of .ltx then ltxTakes v else v
    let v2 := if of .dlv then dlvTakes v1 else v1
    let v3 := if of .lrx then lrxTakes v2 else v2
    let v4 := if of .cmd then cmdTakes v3 else v3
    if of .alr then alrTakes v4 else v4
  (∀ (of : Config.LinkBlock → Bool) (v : State), v.takeDownBy of = taken of v) ∧
  (∀ v : State, v.takeDown = taken (fun _ => true) v) ∧
  ∀ s : State,
    let fallen : Nat → State := fun reports =>
      let v := taken (fun b => !Config.takesLate s.choices b) { s with
        lctl := { s.lctl with link := .down, silenceTimer := none, helloTimer := none }
        cmd := { s.cmd with replies := if s.lctl.link = .up then s.cmd.replies else [] }
        wires := { s.wires with
          retryReports := reports
          falling := { lrx := true, ltx := true, dlv := true
                       cmd := decide (s.lctl.link = .up), alr := decide (s.lctl.link = .up) } } }
      { v with choices := s.choices + 1 }
    (s.wires.upHello = none →
      (s.lctl.silenceTimer = some 0 → s.lctl.link ≠ .down →
        exec .silenceTimerExpiry s = nextOf (fallen s.wires.retryReports)) ∧
      (∀ n, s.wires.retryReports = n + 1 → s.lctl.link = .up → exec .retryLimitReport s = nextOf (fallen n))) ∧
    (s.lctl.link = .up →
      (s.lctl.silenceTimer = some 0 → exec .silenceTimerExpiry s = exec .silenceTimerExpiry s.takeUp) ∧
      (s.wires.retryReports ≠ 0 → exec .retryLimitReport s = exec .retryLimitReport s.takeUp)) ∧
    (s.lctl.silenceTimer ≠ some 0 → exec .silenceTimerExpiry s = nextOf s) ∧
    (s.wires.frameReport = true → s.lctl.silenceTimer = some 0 → s.lctl.link ≠ .down → 1 ≤ s.lctl.silenceLimit →
      (∃ t, exec .silenceTimerExpiry s = nextOf t ∧ t.lctl.link = .down ∧ t.wires.frameReport = true ∧
        t.takeFrameReport = { t with wires := { t.wires with frameReport := false } }) ∧
      exec .silenceTimerExpiry s.takeFrameReport = nextOf s.takeFrameReport) ∧
    (∀ n, s.wires.retryReports = n + 1 → s.lctl.link ≠ .up →
      exec .retryLimitReport s = nextOf { s with wires := { s.wires with retryReports := n } }) ∧
    (s.wires.retryReports = 0 → exec .retryLimitReport s = nextOf s)

/-- In DOWN an unbroken run of delimiters as long as the settle figure takes the link to TRAINING with both timers started, a
HELLO requested and the receiver between frames; a shorter run is counted, and any other byte returns the count to 0 (R119,
R121, Table 7-4). A block that has not taken the entry to DOWN takes it before, as LinkFallsToDown says, and a GET-STATUS
being executed ends before (log 22, log 28). A frame-received report that still waits is taken in DOWN and has no effect
(R123; log 10). A body that still waits, whose report the silence timer's expiry has overtaken, is taken in DOWN by the block it
reached, before the byte that completes the run: a HELLO is ignored, and none waits into TRAINING (R123, R124; log 9). -/
def Obligations.SettledLineEntersTraining : Prop :=
  ∀ s : State, s.lctl.link = .down → s.lrx.rx = .notDecoding → s.wires.falling.lrx = false → s.lrx.settleCode ≤ 3 →
      s.wires.upHello = none →
    let figure := 64 * 2 ^ s.lrx.settleCode
    let v := s.takeDown
    (s.lrx.settleCount = 0 → s.cmd.reading = none →
      (∀ n < figure, execAll (List.replicate n (.downlinkByte 0xC3)) s =
        .next { s with lrx := { s.lrx with settleCount := n } }) ∧
      (s.wires.handedOn = none → execAll (List.replicate figure (.downlinkByte 0xC3)) s = .next { v with
        lrx := { s.lrx with rx := .between, settleCount := figure }
        lctl := { s.lctl with link := .training, silenceTimer := some s.lctl.silenceLimit
                              helloTimer := some s.lctl.helloInterval }
        ltx := { v.ltx with helloPending := true }
        wires := { v.wires with frameReport := false } })) ∧
    (s.lrx.settleCount + 1 < figure → exec (.downlinkByte 0xC3) s =
      nextOf { s with lrx := { s.lrx with settleCount := s.lrx.settleCount + 1 } }) ∧
    (s.cmd.reading ≠ none → s.wires.handedOn = none → s.lrx.settleCount + 1 = figure →
      exec (.downlinkByte 0xC3) s = exec (.downlinkByte 0xC3) s.finishStatus) ∧
    (s.lrx.settleCount + 1 = figure →
      exec (.downlinkByte 0xC3) s = exec (.downlinkByte 0xC3) s.takeFrameReport ∧
      (∀ (b : Body) (i : Instr) (t : State), bodyOfRow i = some b → s.wires.handedOn = some b → s.wires.frameReport = false →
        exec i s = .next t → t.wires.handedOn = none ∧ exec (.downlinkByte 0xC3) s = exec (.downlinkByte 0xC3) t) ∧
      (∀ e, s.wires.handedOn = some (.hello e) → s.wires.frameReport = false → s.cmd.reading = none →
        exec (.downlinkByte 0xC3) s = exec (.downlinkByte 0xC3) { s with wires := { s.wires with handedOn := none } })) ∧
    (∀ b : Byte, b ≠ 0xC3 → exec (.downlinkByte b) s = nextOf { s with lrx := { s.lrx with settleCount := 0 } })

/-- A recorder HELLO moves TRAINING to UP, whatever its sequence: silence timer started again, hello timer stopped, HELLO no
longer pending, retry counts 0 (R124, R125). The delivery controller takes the HELLO with the entry to UP as an event of its
own: RANGE counted unless it names the oldest held sequence, and then delivery opened (R118, R145); in the same step or later,
by a free value, and before the next HELLO at the latest (log 22). In UP it acts as a NAK with its number, or, out of range,
takes back everything out and counts RANGE (R140). In DOWN it is ignored (R124). The frame-received report of an earlier body
is taken before it (R110; log 10). The space-freed report waits only in HOLD (log 8), the body no longer waits (log 9), and
with an abort the mark of an awaited second byte, the bytes sent and the check value go back (log 25, log 27). The owners of a
GET-STATUS in execution may answer after the command (R176; log 28). -/
def Obligations.RecorderHelloIsTaken : Prop :=
  ∀ (e : Seq) (s : State), s.isNext (.hello e) →
    let u : State := { s with wires := { s.wires with handedOn := none, frameReport := false } }
    let named := (e - s.jctl.oldestHeld).toNat
    (s.lctl.link = .training →
      let entered : State := { u with
        lctl := { s.lctl with link := .up, silenceTimer := some s.lctl.silenceLimit, helloTimer := none }
        ltx := { s.ltx with helloPending := false }
        jctl := { s.jctl with frames := s.jctl.frames.map (fun f => { f with retryCount := 0 }) }
        wires := { u.wires with upHello := some e }
        choices := s.choices + 1 }
      exec (.recorderHello e) s = nextOf (if Config.takesLate s.choices .dlv then entered else entered.takeUp)) ∧
    (s.wires.upHello = some e → s.jctl.framesOut = 0 → s.takeUp = { s with
      dlv := { s.dlv with deliveryOpen := true, ackTimer := none
                          range := if e = s.jctl.oldestHeld then s.dlv.range else satInc s.dlv.range }
      wires := { s.wires with upHello := none } }) ∧
    (s.lctl.link = .up → exec (.recorderHello e) s = exec (.recorderHello e) s.takeUp) ∧
    (s.lctl.link = .up → s.wires.upHello = none → s.bodyMatchesFrame → statesInOrder s.jctl.frames →
      (named ≤ s.jctl.framesSent → exec (.recorderHello e) s = nextOf { u with
        lctl := { s.lctl with silenceTimer := some s.lctl.silenceLimit }
        ltx := s.abortedLine
        jctl := { s.jctl with frames := (s.jctl.frames.drop named).map (fun f => { f with state := .closed }) }
        dlv := { s.dlv with ackTimer := none }
        wires := { u.wires with spaceFreed := u.wires.spaceFreed + if named ≠ 0 ∧ s.path.inHold = true then 1 else 0 } }) ∧
      (s.jctl.framesSent < named → exec (.recorderHello e) s = nextOf { u with
        lctl := { s.lctl with silenceTimer := some s.lctl.silenceLimit }
        ltx := s.abortedLine
        jctl := { s.jctl with frames := s.jctl.frames.map (fun f => { f with state := .closed }) }
        dlv := { s.dlv with ackTimer := none, range := satInc s.dlv.range } })) ∧
    (s.lctl.link = .down → exec (.recorderHello e) s = nextOf u)

/-! ### Frame delivery -/

/-- An ACK in range removes the frames before its number and starts the acknowledgment timer again, or stops it when no SENT
frame is left; naming the oldest held sequence it changes nothing (R79, R80, R137, R138). A NAK in range removes them too,
returns everything out to CLOSED, aborts a SENDING body and stops the timer (R139). Out of range both count RANGE alone. A
change of the link state that waits for the delivery controller is taken before either, so that in DOWN neither finds a SENT
frame (R123, R141, R145; log 22; what is taken is in LinkFallsToDown and RecorderHelloIsTaken). What a send end that still
waits then finds is the statement SendEndMakesTheFrameSent (R144; log 12). The space-freed report waits only in HOLD (log 8),
the body no longer waits (log 9), and with an abort the mark of an awaited second byte, the bytes sent and the check value go
back (log 25, log 27). The owners of a GET-STATUS in execution may answer after the command (R176; log 28). -/
def Obligations.AckAndNakAreTaken : Prop :=
  ∀ (n : Seq) (s : State),
    let u : State := { s with wires := { s.wires with handedOn := none } }
    let named := (n - s.jctl.oldestHeld).toNat
    let freed := fun (w : Wires) => { w with
      spaceFreed := w.spaceFreed + if named ≠ 0 ∧ s.path.inHold = true then 1 else 0 }
    let current := s.takeUp.takeDownBy (fun b => decide (b = .dlv))
    (s.isNext (.ack n) → exec (.ack n) s = exec (.ack n) current) ∧
    (s.isNext (.nak n) → exec (.nak n) s = exec (.nak n) current) ∧
    (s.dlvCurrent → s.isNext (.ack n) → s.jctl.framesSent < named →
      exec (.ack n) s = nextOf { u with dlv := { s.dlv with range := satInc s.dlv.range } }) ∧
    (s.dlvCurrent → s.isNext (.nak n) → s.jctl.framesSent < named →
      exec (.nak n) s = nextOf { u with dlv := { s.dlv with range := satInc s.dlv.range } }) ∧
    (s.dlvCurrent → s.isNext (.ack n) → named = 0 → exec (.ack n) s = nextOf u) ∧
    (s.dlvCurrent → s.isNext (.ack n) → 0 < named → named ≤ s.jctl.framesSent → exec (.ack n) s = nextOf { u with
      jctl := { s.jctl with frames := s.jctl.frames.drop named }
      dlv := { s.dlv with ackTimer :=
        if ∃ f ∈ s.jctl.frames.drop named, f.state = .sent then some s.dlv.ackTimeout else none }
      wires := freed u.wires }) ∧
    (s.dlvCurrent → s.isNext (.nak n) → named ≤ s.jctl.framesSent → s.bodyMatchesFrame → statesInOrder s.jctl.frames →
      exec (.nak n) s = nextOf { u with
      ltx := s.abortedLine
      jctl := { s.jctl with frames := (s.jctl.frames.drop named).map (fun f => { f with state := .closed }) }
      dlv := { s.dlv with ackTimer := none }
      wires := freed u.wires })

/-- The acknowledgment timer's expiry raises the oldest frame's retry count (R78, R142): within RETRY-LIMIT everything out is
taken back; past it, or already at 15, a retry-limit report waits for the link controller (log 8) and nothing is taken back
(R143); with no SENT frame at the head nothing but the timer changes. Before it is due the row has no effect (log 7), and with
an abort the mark of an awaited second byte, the bytes sent and the check value go back (log 25, log 27). The owners of a
GET-STATUS in execution may answer after the command (R176; log 28). -/
def Obligations.AckTimerExpires : Prop :=
  ∀ s : State,
    (s.dlv.ackTimer = some 0 → s.dlv.retryLimit ≤ 15 →
      (∀ (f : Frame) (rest : List Frame), s.jctl.frames = f :: rest → f.state = .sent → f.retryCount ≤ 15 →
        (f.retryCount + 1 ≤ s.dlv.retryLimit → s.bodyMatchesFrame →
          exec .ackTimerExpiry s = nextOf { s with
            ltx := s.abortedLine
            jctl := { s.jctl with frames :=
              ({ f with retryCount := f.retryCount + 1 } :: rest).map (fun g => { g with state := .closed }) }
            dlv := { s.dlv with ackTimer := none } }) ∧
        (s.dlv.retryLimit < f.retryCount + 1 →
          exec .ackTimerExpiry s = nextOf { s with
            jctl := { s.jctl with frames := { f with retryCount := min (f.retryCount + 1) 15 } :: rest }
            dlv := { s.dlv with ackTimer := none }
            wires := { s.wires with retryReports := s.wires.retryReports + 1 } })) ∧
      ((∀ f, s.jctl.frames.head? = some f → f.state ≠ .sent) →
        exec .ackTimerExpiry s = nextOf { s with dlv := { s.dlv with ackTimer := none } })) ∧
    (s.dlv.ackTimer ≠ some 0 → exec .ackTimerExpiry s = nextOf s)

/-- At a frame boundary the transmitter starts, in UP, the reply at the head of the queue, else the oldest CLOSED frame when
delivery is open, none is SENDING and the window has room, else sends one fill delimiter; in TRAINING an uplink HELLO when one
is pending, else fill; in DOWN fill (R104, R113, R122, R132 to R135). Delivery is open once the delivery controller has taken
the entry to UP (R145; log 22). Fill is put in a byte time that has begun (log 2). The journal controller takes a send end that
waits before the choice (log 12). In the middle of a body or of an abort there is no frame boundary, and the row has no effect
(log 11). The owners of a GET-STATUS in execution may answer after the command (R176; log 28). -/
def Obligations.FrameBoundaryChoosesTheBody : Prop :=
  ∀ s : State,
    (s.ltx.body ≠ none ∨ s.ltx.abortBytes ≠ [] → exec .frameBoundary s = nextOf s) ∧
    (s.ltx.body = none → s.ltx.abortBytes = [] → s.wires.sendEnd = true →
      (∀ (before after : List Frame) (f : Frame), s.jctl.frames = before ++ f :: after → f.state = .sending →
        (∀ g ∈ before ++ after, g.state ≠ .sending) →
        exec .frameBoundary s = exec .frameBoundary { s with
          jctl := { s.jctl with frames := before ++ { f with state := .sent, sentBefore := true } :: after }
          wires := { s.wires with sendEnd := false, sendReport := true } }) ∧
      ((∀ g ∈ s.jctl.frames, g.state ≠ .sending) →
        exec .frameBoundary s = exec .frameBoundary { s with wires := { s.wires with sendEnd := false } })) ∧
    (s.ltx.body = none → s.ltx.abortBytes = [] → s.wires.sendEnd = false →
      let fill := { s with ltx :=
        if s.ltx.byteDue then { s.ltx with byteDue := false, lastByte := some 0xC3 } else s.ltx }
      let started := fun (kind : TxKind) (bytes : List Byte) =>
        { s.ltx with body := some ⟨kind, bytes⟩, bytesSent := 0, escapeSent := false, check := 0xFFFF }
      (s.lctl.link = .down → exec .frameBoundary s = nextOf fill) ∧
      (s.lctl.link = .training →
        (s.ltx.helloPending = false → exec .frameBoundary s = nextOf fill) ∧
        (s.ltx.helloPending = true → exec .frameBoundary s = nextOf { s with
          ltx := { started .hello ([0x48] ++ be16 s.jctl.epoch ++ [s.jctl.oldestHeld, s.jctl.nextSeq,
                     BitVec.ofNat 8 s.jctl.framesHeld, 0x24, 0x10, 0x01]) with helloPending := false } })) ∧
      (s.lctl.link = .up →
        (∀ (r : Reply) (rest : List Reply), s.cmd.replies = r :: rest → exec .frameBoundary s = nextOf { s with
          cmd := { s.cmd with replies := rest }
          ltx := started .reply ([0x52, r.tag, r.code, resultCode r.result] ++ r.data) }) ∧
        (s.cmd.replies = [] →
          (∀ (before after : List Frame) (f : Frame), s.dlv.deliveryOpen = true → s.jctl.framesOut < s.dlv.sendWindow →
            (∀ g ∈ s.jctl.frames, g.state ≠ .sending) → s.jctl.frames = before ++ f :: after →
            (∀ g ∈ before, g.state ≠ .closed) → f.state = .closed →
            exec .frameBoundary s = nextOf { s with
              jctl := { s.jctl with frames := before ++ { f with state := .sending } :: after }
              ltx := { started (.journal f.seq) ([0x4A, f.seq] ++ be16 s.jctl.epoch ++ be32 f.baseTime ++
                         be16 (BitVec.ofNat 16 f.records.length) ++
                         [closeCauseCode f.closeCause, if f.sentBefore then 0x01 else 0x00] ++
                         f.records.flatMap recordBytes) with
                       retransmitted := if f.sentBefore then satInc s.ltx.retransmitted else s.ltx.retransmitted } }) ∧
          ((s.dlv.deliveryOpen = false ∨ s.dlv.sendWindow ≤ s.jctl.framesOut ∨ (∃ g ∈ s.jctl.frames, g.state = .sending) ∨
              ∀ g ∈ s.jctl.frames, g.state ≠ .closed) →
            exec .frameBoundary s = nextOf fill))))

/-- SEND_END takes a send end that waits: the SENDING frame becomes SENT, sent before, and the acknowledgment timer starts
unless it runs (R76, R136); with no frame SENDING, because a return to CLOSED or a restart was taken first, no frame changes
and no report follows (R76, R144); a report alone starts the timer only if a SENT frame is held (R136). With none waiting it
sends the closing delimiter of a JOURNAL body whose bytes and check value have all been sent, and the same follows (R104);
before the delimiter is due, and with no JOURNAL body, it has no effect. That the send end and its report may wait, and when
the delimiter is due, is log 12; the bytes sent and the check value go back at the end (log 27). The owners of a GET-STATUS in
execution may answer after the command (R176; log 28). -/
def Obligations.SendEndMakesTheFrameSent : Prop :=
  ∀ s : State,
    let ended := { s.ltx with body := none, bytesSent := 0, escapeSent := false, check := 0xFFFF, byteDue := false
                              lastByte := some 0xC3 }
    let sent : List Frame → List Frame → Frame → State := fun before after f => { s with
      jctl := { s.jctl with frames := before ++ { f with state := .sent, sentBefore := true } :: after }
      dlv := { s.dlv with ackTimer := if s.dlv.ackTimer = none then some s.dlv.ackTimeout else s.dlv.ackTimer }
      wires := { s.wires with sendEnd := false, sendReport := false } }
    (s.wires.sendEnd = true → ∀ (before after : List Frame) (f : Frame), s.jctl.frames = before ++ f :: after →
      f.state = .sending → (∀ g ∈ before ++ after, g.state ≠ .sending) →
      exec .sendEnd s = nextOf (sent before after f)) ∧
    (s.wires.sendEnd = true ∨ s.wires.sendReport = true →
      s.wires.sendEnd = false ∨ (∀ g ∈ s.jctl.frames, g.state ≠ .sending) →
      exec .sendEnd s = nextOf { s with
        dlv := { s.dlv with
          ackTimer := if s.wires.sendReport = true ∧ s.dlv.ackTimer = none ∧ (∃ f ∈ s.jctl.frames, f.state = .sent)
            then some s.dlv.ackTimeout else s.dlv.ackTimer }
        wires := { s.wires with sendEnd := false, sendReport := false } }) ∧
    (s.wires.sendEnd = false → s.wires.sendReport = false →
      (∀ (seq : Seq) (bytes : List Byte), s.ltx.body = some ⟨.journal seq, bytes⟩ →
        (s.ltx.byteDue = true → bytes.length + 2 ≤ s.ltx.bytesSent →
          (∀ (before after : List Frame) (f : Frame), s.jctl.frames = before ++ f :: after → f.state = .sending →
            (∀ g ∈ before ++ after, g.state ≠ .sending) →
            exec .sendEnd s = nextOf { sent before after f with ltx := ended }) ∧
          ((∀ g ∈ s.jctl.frames, g.state ≠ .sending) → exec .sendEnd s = nextOf { s with ltx := ended })) ∧
        ((s.ltx.byteDue = false ∨ s.ltx.bytesSent < bytes.length + 2) → exec .sendEnd s = nextOf s)) ∧
      (s.ltx.inJournal = false → exec .sendEnd s = nextOf s))

/-! ### Downlink -/

/-- A downlink frame as the recorder sends it, escaped, with its check value and closing delimiter, is collected byte by byte,
accepted and handed on, and its frame-received report waits for the link controller; the report of a HELLO goes with the HELLO
(R102, R106 to R110, R112, R123, R124; log 10). HELLO is accepted in TRAINING and UP, the others in UP. The body waits for the
row of its kind; until then the row of another body has no effect, and before the next body is judged the report, the waiting
body and a HELLO that has reached the link controller and not yet the delivery controller are taken (R110, R141, R145; log 22);
what a HELLO does that moves the link is in FailingBodiesAreDiscarded. The report, taken in TRAINING or UP, starts the silence timer again, and in DOWN it
has no effect (R123). While a GET-STATUS is executed its owners may answer between any two bytes (log 28): what each byte does
is in ReceiverActsOnEachByte. -/
def Obligations.DownlinkFrameIsHandedOn : Prop :=
  ∀ (b : Body) (s : State),
    let handed := fun (v : State) => ({ v with wires := { v.wires with
      handedOn := some b
      frameReport := match b with
        | .hello _                       => false
        | .ack _ | .nak _ | .command _ _ _ => true } } : State)
    ((s.lctl.link = .up ∨ (s.lctl.link = .training ∧ ∃ e, b = .hello e)) → s.lrx.rx = .between → s.wires.handedOn = none →
      s.wires.upHello = none → s.wires.frameReport = false → s.cmd.reading = none →
      (∀ tag code args, b = .command tag code args → args.length ≤ 59) →
      execAll ((downlinkLine b).map .downlinkByte) s = .next (handed s)) ∧
    ((s.lctl.link = .up ∨ (s.lctl.link = .training ∧ ∃ e, b = .hello e)) →
      s.lrx.rx = .collecting (withCheck (downlinkBody b)) → s.wires.handedOn = none →
      s.wires.upHello = none → s.wires.frameReport = false →
      (∀ tag code args, b = .command tag code args → args.length ≤ 59) →
      exec (.downlinkByte 0xC3) s = nextOf (handed { s with lrx := { s.lrx with rx := .between } })) ∧
    (∀ (i : Instr) (c : Body), bodyOfRow i = some c → s.wires.handedOn = some b → b ≠ c → exec i s = nextOf s) ∧
    (∀ (i : Instr) (bytes : List Byte) (t : State), bodyOfRow i = some b → s.wires.handedOn = some b →
      exec i s = .next t → t.wires.handedOn = none ∧
      (s.lrx.rx = .collecting bytes → s.wires.frameReport = false → (s.lctl.link = .training → ∀ e, b ≠ .hello e) →
        exec (.downlinkByte 0xC3) s = exec (.downlinkByte 0xC3) t)) ∧
    (∀ bytes, s.lrx.rx = .collecting bytes →
      exec (.downlinkByte 0xC3) s = exec (.downlinkByte 0xC3) s.takeFrameReport ∧
      (s.wires.handedOn = none → exec (.downlinkByte 0xC3) s = exec (.downlinkByte 0xC3) s.takeUp)) ∧
    (s.wires.frameReport = true → s.takeFrameReport = { s with
      lctl := if s.lctl.link = .down then s.lctl else { s.lctl with silenceTimer := some s.lctl.silenceLimit }
      wires := { s.wires with frameReport := false } })

/-- The receiver's action on each byte that does not end a body in COLLECTING (R108, Table 6-5): fill, start, collect,
un-escape, abort, escape error, the 65th byte, and the end of a body already discarded, counted under its one reason with LINE
for ABORT, ESCAPE and LENGTH (R111). The owners of a GET-STATUS in execution may answer after the command (R176; log 28). -/
def Obligations.ReceiverActsOnEachByte : Prop :=
  ∀ (b : Byte) (s : State),
    let goes := fun (rx : RxState) => ({ s with lrx := { s.lrx with rx := rx } } : State)
    let collected := fun (bytes : List Byte) (v : Byte) =>
      goes (if bytes.length < 64 then .collecting (bytes ++ [v]) else .discarding .length)
    (s.lrx.rx = .between → exec (.downlinkByte b) s = nextOf
      (if b = 0xC3 then s else if b = 0xCC then goes (.escaped []) else goes (.collecting [b]))) ∧
    (∀ bytes, s.lrx.rx = .collecting bytes → b ≠ 0xC3 → exec (.downlinkByte b) s = nextOf
      (if b = 0xCC then goes (.escaped bytes) else collected bytes b)) ∧
    (∀ bytes, s.lrx.rx = .escaped bytes → exec (.downlinkByte b) s = nextOf
      (if b = 0xC3 then { s with
          lrx := { s.lrx with rx := .between, discards := { s.lrx.discards with abort := satInc s.lrx.discards.abort } }
          alr := { s.alr with flags := s.alr.flags ||| 0b001000 } }
       else if b = 0xD3 then collected bytes 0xC3
       else if b = 0xDC then collected bytes 0xCC
       else goes (.discarding .escape))) ∧
    (s.lrx.rx = .discarding .escape → exec (.downlinkByte b) s = nextOf
      (if b = 0xC3 then { s with
          lrx := { s.lrx with rx := .between, discards := { s.lrx.discards with escape := satInc s.lrx.discards.escape } }
          alr := { s.alr with flags := s.alr.flags ||| 0b001000 } }
       else s)) ∧
    (s.lrx.rx = .discarding .length → exec (.downlinkByte b) s = nextOf
      (if b = 0xC3 then { s with
          lrx := { s.lrx with rx := .between, discards := { s.lrx.discards with length := satInc s.lrx.discards.length } }
          alr := { s.alr with flags := s.alr.flags ||| 0b001000 } }
       else s))

/-- The first check of Table 6-6 that a completed body fails decides its reason: fewer than 3 bytes LENGTH, a wrong check value
CRC, an unknown kind KIND, a length that does not suit the kind LENGTH, a kind the link does not accept STATE; for a body with
a right check value a frame-received report waits all the same (log 10); LINE is set for LENGTH and CRC alone (R109 to R111,
R123). In DOWN no kind is accepted: a body that ends before the receiver takes the entry to DOWN is judged against it (R109,
R118; log 22). A body or a report that waits is taken first: DownlinkFrameIsHandedOn. When the waiting body is the HELLO that
moves the link from TRAINING to UP, the receiver takes the move and the end of the body in either order, by a free value: after
the move the body is judged against UP, and before it an ACK, NAK or COMMAND is judged against TRAINING and discarded as STATE
(R109; log 9). The owners of a GET-STATUS in execution may answer after the command (R176; log 28). -/
def Obligations.FailingBodiesAreDiscarded : Prop :=
  (∀ (bytes : List Byte) (s : State), s.lrx.rx = .collecting bytes → s.wires.handedOn = none → s.wires.upHello = none →
      s.wires.frameReport = false →
    let counted := fun (d : DiscardCounters) (line received : Bool) => ({ s with
      lrx := { s.lrx with rx := .between, discards := d }
      alr := if line then { s.alr with flags := s.alr.flags ||| 0b001000 } else s.alr
      wires := { s.wires with frameReport := received } } : State)
    let d := s.lrx.discards
    (bytes.length < 3 →
      exec (.downlinkByte 0xC3) s = nextOf (counted { d with length := satInc d.length } true false)) ∧
    (∀ (payload : List Byte) (high low : Byte), bytes = payload ++ [high, low] → payload ≠ [] →
      (high ++ low ≠ checkValue payload →
        exec (.downlinkByte 0xC3) s = nextOf (counted { d with crc := satInc d.crc } true false)) ∧
      (high ++ low = checkValue payload → ∀ kind : Byte, payload.head? = some kind →
        (kind ∉ ([0x68, 0x61, 0x6E, 0x63] : List Byte) →
          exec (.downlinkByte 0xC3) s = nextOf (counted { d with kind := satInc d.kind } false true)) ∧
        (kind ∈ ([0x68, 0x61, 0x6E] : List Byte) → bytes.length ≠ 4 →
          exec (.downlinkByte 0xC3) s = nextOf (counted { d with length := satInc d.length } true true)) ∧
        (kind = 0x63 → (bytes.length < 5 ∨ 64 < bytes.length) →
          exec (.downlinkByte 0xC3) s = nextOf (counted { d with length := satInc d.length } true true)) ∧
        ((s.lctl.link ≠ .up ∧ kind ∈ ([0x61, 0x6E] : List Byte) ∧ bytes.length = 4) ∨
            (s.lctl.link ≠ .up ∧ kind = 0x63 ∧ 5 ≤ bytes.length ∧ bytes.length ≤ 64) ∨
            (s.lctl.link = .down ∧ kind = 0x68 ∧ bytes.length = 4) →
          exec (.downlinkByte 0xC3) s = nextOf (counted { d with state := satInc d.state } false true))))) ∧
  ∀ (bytes : List Byte) (e : Seq) (s t : State), s.lrx.rx = .collecting bytes → s.lctl.link = .training →
      s.wires.handedOn = some (.hello e) → s.wires.frameReport = false →
      exec (.recorderHello e) { s with choices := s.choices + 1 } = .next t →
    let v := t.takeUp
    let needsUp := ∃ b : Body, bytes = withCheck (downlinkBody b) ∧ (∀ n, b ≠ .hello n) ∧
      ∀ tag code args, b = .command tag code args → args.length ≤ 59
    (Config.judgesFirst s.choices = true → needsUp → exec (.downlinkByte 0xC3) s = nextOf { v with
      lrx := { v.lrx with rx := .between, discards := { v.lrx.discards with state := satInc v.lrx.discards.state } }
      wires := { v.wires with frameReport := true } }) ∧
    ((Config.judgesFirst s.choices = false ∨ ¬ needsUp) →
      exec (.downlinkByte 0xC3) s = exec (.downlinkByte 0xC3) t)

/-! ### Commands of the recorder -/

/-- A command taken while the link is not UP, after the command unit has taken the entry to DOWN, is discarded and counted as
STATE, without any alert (R150; the unit's own event, log 22); one taken while the reply queue holds 4 replies is discarded
and counted, whatever its tag (R151); nothing else changes, the last-tag memory included. A GET-STATUS being executed is
complete before the next command is taken (R155; log 28). The body no longer waits (log 9). -/
def Obligations.CommandsAreDiscarded : Prop :=
  ∀ (i : Instr) (tag code : Byte) (args : List Byte) (s : State), commandFields i = some (tag, code, args) →
    s.isNext (.command tag code args) →
    let u : State := { s with wires := { s.wires with handedOn := none } }
    (s.cmd.reading ≠ none → exec i s = exec i s.finishStatus ∧ s.finishStatus.cmd.reading = none) ∧
    (s.cmd.reading = none → s.lctl.link ≠ .up → s.wires.falling.cmd = false → exec i s = .next { u with
      lrx := { s.lrx with discards := { s.lrx.discards with state := satInc s.lrx.discards.state } } }) ∧
    (s.cmd.reading = none → (s.lctl.link = .up ∨ s.wires.falling.cmd = true) → 4 ≤ s.cmd.replies.length →
      exec i s = .next { u with
      cmd := { s.cmd with commandsDiscarded := satInc s.cmd.commandsDiscarded } })

/-- A command whose tag is the stored tag is not executed, whatever its code and arguments: a copy of the stored reply
joins the queue and nothing else changes; after cold reset no tag is stored (R152). The body no longer waits (log 9),
and the entry to DOWN is an event of the unit's own (log 22). -/
def Obligations.DuplicatesAreAnsweredFromMemory : Prop :=
  (∀ (i : Instr) (tag code : Byte) (args : List Byte) (r : Reply) (s : State),
    commandFields i = some (tag, code, args) → s.isNext (.command tag code args) → s.cmd.reading = none →
    (s.lctl.link = .up ∨ s.wires.falling.cmd = true) → s.cmd.replies.length < 4 → s.cmd.lastTag = some r → r.tag = tag →
    exec i s = .next { s with
      wires := { s.wires with handedOn := none }
      cmd := { s.cmd with replies := s.cmd.replies ++ [r] } }) ∧
  (∀ p : Pins, (State.afterReset p).cmd.lastTag = none)

/-- An unknown code is answered BAD-COMMAND with the code as received, a known code with a wrong number of argument
bytes BAD-LENGTH; neither is executed, and either reply replaces the last-tag memory (R153, R154, Table 6-15). The
body no longer waits (log 9), and the entry to DOWN is an event of the unit's own (log 22). -/
def Obligations.WrongCommandsAreAnswered : Prop :=
  ∀ (tag code : Byte) (args : List Byte) (s : State), s.acceptsTag tag → s.isNext (.command tag code args) →
    let u : State := { s with wires := { s.wires with handedOn := none } }
    ((code = 0x00 ∨ 0x0C < code) → exec (.unknownCommandCode tag code args) s =
      .next (u.replied tag code .badCommand [])) ∧
    (∀ (i : Instr) (n : Nat), commandFields i = some (tag, code, args) →
      (code, n) ∈ ([(0x01, 1), (0x02, 18), (0x03, 0), (0x04, 1), (0x05, 5), (0x06, 1), (0x07, 1), (0x08, 0), (0x09, 3),
        (0x0A, 0), (0x0B, 0), (0x0C, 0)] : List (Byte × Nat)) → args.length ≠ n →
      exec i s = .next (u.replied tag code .badLength []))

/-- GET_ENTRY answers with the stored fields and hit count of the entry and changes nothing in the table, or BAD-INDEX
(R157). SET_ENTRY makes the checks of Table 1-7 in order: index, range, and each coded byte in its set of Table 6-16;
on OK the entry is replaced whole by what the bytes code, with hit count 0, and with any other result the table is as
it was (R15, R16, R115, R158). The body no longer waits (log 9), and the entry to DOWN is an event of the unit's own
(log 22). -/
def Obligations.EntriesAreReadAndWritten : Prop :=
  (∀ (tag index : Byte) (s : State), s.acceptsTag tag → s.isNext (.command tag 0x01 [index]) →
    let u : State := { s with wires := { s.wires with handedOn := none } }
    (∀ e, s.wtab.entries[index.toNat]? = some e →
      exec (.getEntry tag [index]) s = .next (u.replied tag 0x01 .ok (entryData index e))) ∧
    (15 < index.toNat → exec (.getEntry tag [index]) s = .next (u.replied tag 0x01 .badIndex []))) ∧
  (∀ (tag : Byte) (args : List Byte) (s : State), s.acceptsTag tag → s.isNext (.command tag 0x02 args) →
    args.length = 18 →
    let u : State := { s with wires := { s.wires with handedOn := none } }
    let arg := fun (k : Nat) => args.getD k 0
    let index := (arg 0).toNat
    let base := arg 2 ++ arg 3 ++ arg 4 ++ arg 5
    let limit := arg 6 ++ arg 7 ++ arg 8 ++ arg 9
    let aligned := base.toNat % 4 = 0 ∧ (limit.toNat + 1) % 4 = 0 ∧ base.toNat ≤ limit.toNat
    let coded := arg 1 ≤ 0x01 ∧ arg 10 ≤ 0x02 ∧ arg 12 ≤ 0x03 ∧ arg 13 ≤ 0x01 ∧ arg 14 ≤ 0x01 ∧ arg 15 ≤ 0x01 ∧
      arg 16 ≤ 0x01 ∧ arg 17 ≤ 0x01
    let written : WatchEntry :=
      { valid := decide (arg 1 = 0x01), base := base, limit := limit
        kinds := if arg 10 = 0x00 then .writes else if arg 10 = 0x01 then .reads else .both
        sourceValue := (arg 11).extractLsb' 4 4, sourceMask := (arg 11).extractLsb' 0 4
        writeForm := if arg 12 = 0x00 then .none else if arg 12 = 0x01 then .address
                     else if arg 12 = 0x02 then .after else .both
        readForm := if arg 13 = 0x00 then .none else .address
        lossPolicy := if arg 14 = 0x00 then .drop else .hold
        freezable := decide (arg 15 = 0x01)
        refusal := if arg 16 = 0x00 then .error else .silent
        closeAfter := decide (arg 17 = 0x01), hitCount := 0 }
    (15 < index → exec (.setEntry tag args) s = .next (u.replied tag 0x02 .badIndex [])) ∧
    (index ≤ 15 → ¬ aligned → exec (.setEntry tag args) s = .next (u.replied tag 0x02 .badRange [])) ∧
    (index ≤ 15 → aligned → ¬ coded → exec (.setEntry tag args) s = .next (u.replied tag 0x02 .badValue [])) ∧
    (index ≤ 15 → aligned → coded → exec (.setEntry tag args) s = .next
      (({ u with wtab := { entries := s.wtab.entries.setIfInBounds index written } } : State).replied tag 0x02 .ok [])))

/-- CLEAR_TABLE makes all sixteen entries not valid with hit count 0 and keeps every other stored field, whatever the
table holds; requests already classified keep their attributes and later ones are unwatched; the answer is OK (R17).
The body no longer waits (log 9), and the entry to DOWN is an event of the unit's own (log 22). -/
def Obligations.ClearTableKeepsOtherFields : Prop :=
  ∀ (tag : Byte) (s : State), s.acceptsTag tag → s.isNext (.command tag 0x03 []) →
    ∃ w : WatchTable,
      (∀ k : Fin 16, w.entries[k] = { s.wtab.entries[k] with valid := false, hitCount := 0 }) ∧
      (∀ r, w.governing r = none) ∧
      exec (.clearTable tag []) s = .next
        (({ s with wires := { s.wires with handedOn := none }, wtab := w } : State).replied tag 0x03 .ok [])

/-- GET_PARAM answers with the value its owner holds, as four bytes; SET_PARAM takes a value of the parameter's range of Table
9-5 and no other, compared as a whole 32-bit number; an unlisted id is answered BAD-VALUE by both (R159, R160). A value taken
is the owner's value, and nothing else changes: no running timer, no filter, no frame, not the link (R85, R91, R130, R134,
R148, R167, R168); only a SETTLE-CODE taken in DOWN by a receiver that counts, with its figure at or below the settle count,
settles at once (R120), which a command taken before the unit's own entry to DOWN can do (R150; log 22; the entry to TRAINING
is that of SettledLineEntersTraining). The body no longer waits (log 9). -/
def Obligations.ParametersAreReadAndWritten : Prop :=
  let rows : List (Byte × Param × Nat × Nat) :=
    [(0x01, .frameLimit, 256, 4096), (0x02, .idleClose, 0, 65535), (0x03, .tickShift, 0, 15), (0x04, .sendWindow, 1, 16),
     (0x05, .ackTimeout, 1, 65535), (0x06, .retryLimit, 1, 15), (0x07, .stallLimit, 1, 65535), (0x08, .settleCode, 0, 3),
     (0x09, .helloInterval, 1, 65535), (0x0A, .silenceLimit, 1, 65535), (0x0B, .filterCode, 0, 7),
     (0x0C, .marker .m0, 0, 7), (0x0D, .marker .m1, 0, 7), (0x0E, .marker .m2, 0, 7), (0x0F, .marker .m3, 0, 7),
     (0x10, .alertEnable, 0, 63)]
  ∀ (tag id : Byte) (s : State), s.acceptsTag tag →
    let u : State := { s with wires := { s.wires with handedOn := none } }
    let held : Param → Nat := fun p => match p with
      | .frameLimit    => s.jctl.frameLimit
      | .idleClose     => s.jctl.idleClose
      | .tickShift     => s.tbs.tickShift
      | .sendWindow    => s.dlv.sendWindow
      | .ackTimeout    => s.dlv.ackTimeout
      | .retryLimit    => s.dlv.retryLimit
      | .stallLimit    => s.path.stallLimit
      | .settleCode    => s.lrx.settleCode
      | .helloInterval => s.lctl.helloInterval
      | .silenceLimit  => s.lctl.silenceLimit
      | .filterCode    => s.mrk.filterCode
      | .marker .m0    => s.mrk.markers.m0.toNat
      | .marker .m1    => s.mrk.markers.m1.toNat
      | .marker .m2    => s.mrk.markers.m2.toNat
      | .marker .m3    => s.mrk.markers.m3.toNat
      | .alertEnable   => s.alr.enable.toNat
    let taken : Param → Nat → State := fun p v => match p with
      | .frameLimit    => { u with jctl := { s.jctl with frameLimit := v } }
      | .idleClose     => { u with jctl := { s.jctl with idleClose := v } }
      | .tickShift     => { u with tbs := { s.tbs with tickShift := v } }
      | .sendWindow    => { u with dlv := { s.dlv with sendWindow := v } }
      | .ackTimeout    => { u with dlv := { s.dlv with ackTimeout := v } }
      | .retryLimit    => { u with dlv := { s.dlv with retryLimit := v } }
      | .stallLimit    => { u with path := { s.path with stallLimit := v } }
      | .settleCode    => { u with lrx := { s.lrx with settleCode := v } }
      | .helloInterval => { u with lctl := { s.lctl with helloInterval := v } }
      | .silenceLimit  => { u with lctl := { s.lctl with silenceLimit := v } }
      | .filterCode    => { u with mrk := { s.mrk with filterCode := v }, frzu := { s.frzu with filterCode := v } }
      | .marker .m0    => { u with mrk := { s.mrk with markers := { s.mrk.markers with m0 := BitVec.ofNat 3 v } } }
      | .marker .m1    => { u with mrk := { s.mrk with markers := { s.mrk.markers with m1 := BitVec.ofNat 3 v } } }
      | .marker .m2    => { u with mrk := { s.mrk with markers := { s.mrk.markers with m2 := BitVec.ofNat 3 v } } }
      | .marker .m3    => { u with mrk := { s.mrk with markers := { s.mrk.markers with m3 := BitVec.ofNat 3 v } } }
      | .alertEnable   => { u with alr := { s.alr with enable := BitVec.ofNat 6 v } }
    (s.isNext (.command tag 0x04 [id]) →
      (∀ row ∈ rows, row.1 = id → exec (.getParam tag [id]) s =
        .next (u.replied tag 0x04 .ok (be32 (BitVec.ofNat 32 (held row.2.1))))) ∧
      ((∀ row ∈ rows, row.1 ≠ id) → exec (.getParam tag [id]) s = .next (u.replied tag 0x04 .badValue []))) ∧
    (∀ value : BitVec 32, s.isNext (.command tag 0x05 (id :: be32 value)) →
      let answer := exec (.setParam tag (id :: be32 value)) s
      let v := value.toNat
      ((∀ row ∈ rows, row.1 ≠ id) → answer = .next (u.replied tag 0x05 .badValue [])) ∧
      (∀ row ∈ rows, row.1 = id →
        (v < row.2.2.1 ∨ row.2.2.2 < v → answer = .next (u.replied tag 0x05 .badValue [])) ∧
        (row.2.2.1 ≤ v → v ≤ row.2.2.2 →
          (id ≠ 0x08 ∨ s.lrx.rx ≠ .notDecoding ∨ s.lctl.link ≠ .down ∨ s.lrx.settleCount < 64 * 2 ^ v →
            answer = .next ((taken row.2.1 v).replied tag 0x05 .ok [])) ∧
          (id = 0x08 → s.lrx.rx = .notDecoding → s.lctl.link = .down → 64 * 2 ^ v ≤ s.lrx.settleCount →
            let w := (taken row.2.1 v).takeDown
            answer = .next { w with
              lrx := { w.lrx with rx := .between }
              lctl := { s.lctl with link := .training, silenceTimer := some s.lctl.silenceLimit
                                    helloTimer := some s.lctl.helloInterval }
              ltx := { w.ltx with helloPending := true }
              wires := { w.wires with frameReport := false }
              cmd := { w.cmd with execState := .ready, lastTag := some ⟨tag, 0x05, .ok, []⟩ } }))))

/-- GET_STATUS asks each owner for its fields of Table 6-18 (R161). Each answers at a moment of its own, from its state at that
moment, its fields together, and with clear = 01h then sets its counters to 0 (R117, R175, R176). There is a moment after each
command and between what happens in a CLK period; at each, which of the owners still to answer do so is a free value, so every
owner may answer before or after any event (log 28). The path controller answers with no claim for its request in hand
unanswered, so that IDLE is read only with no request in hand (R21; log 6). The reply is formed when the last owner has
answered; before the next command, and with the end of 2 byte times (EmptyQueuePassesOneClkPeriod), those still to answer do so
(R155). It has the 64 bytes, each owner's from the state in which it answered, and joins the queue, unless the unit has taken
an entry to DOWN before (R154, R155; log 22), and nothing else changes. A clear byte other than 00h and 01h is answered
BAD-VALUE (R161). The body no longer waits (log 9), and the entry to DOWN is an event of the unit's own (log 22). -/
def Obligations.StatusIsReadThenCleared : Prop :=
  let cleared := fun (of : Config.StatusOwner → Prop) [DecidablePred of] (v : State) => ({ v with
    jctl := if of .jctl then { v.jctl with recordsAppended := 0, recordsLost := 0, framesClosed := 0 } else v.jctl
    ltx := if of .ltx then { v.ltx with retransmitted := 0 } else v.ltx
    path := if of .path then { v.path with
      writesRefused := 0, stallExpiries := 0, writeFailures := 0, unmatchedResponses := 0 } else v.path
    cmd := if of .cmd then { v.cmd with commandsDiscarded := 0 } else v.cmd
    lrx := if of .lrx then { v.lrx with discards := ⟨0, 0, 0, 0, 0, 0⟩ } else v.lrx
    dlv := if of .dlv then { v.dlv with range := 0 } else v.dlv } : State)
  let bit := fun (i : Nat) (b : Bool) => if b then (1 : Byte) <<< i else 0
  let data := fun (by' : Config.StatusOwner → State) =>
    [match (by' .lctl).lctl.link with | .down => 0x00 | .training => 0x01 | .up => 0x02,
     bit 0 (by' .frzu).frzu.commandFreeze ||| bit 1 (by' .frzu).frzu.filter.level |||
       bit 2 ((by' .frzu).frzu.commandFreeze || (by' .frzu).frzu.filter.level),
     match (by' .path).path.state with
       | .idle => 0x00 | .waitSlot _ => 0x01 | .preRead _ _ => 0x02 | .claiming _ _ _ | .hold _ _ _ => 0x03,
     BitVec.ofNat 8 (by' .path).path.tracking.length,
     BitVec.ofNat 8 (by' .jctl).jctl.framesHeld, BitVec.ofNat 8 (by' .jctl).jctl.framesSent,
     (by' .jctl).jctl.oldestHeld, (by' .jctl).jctl.nextSeq] ++
    be16 (by' .jctl).jctl.epoch ++ be16 (BitVec.ofNat 16 (by' .jctl).jctl.storeUsed) ++
    be32 (by' .jctl).jctl.pendingLoss ++
    [(0 : BitVec 2) ++ (by' .alr).alr.flags,
     bit 0 (by' .mrk).mrk.filters.m0.level ||| bit 1 (by' .mrk).mrk.filters.m1.level |||
       bit 2 (by' .mrk).mrk.filters.m2.level ||| bit 3 (by' .mrk).mrk.filters.m3.level |||
       bit 4 (by' .frzu).frzu.filter.level] ++
    be32 (by' .tbs).tbs.time ++
    be32 (by' .jctl).jctl.recordsAppended ++ be32 (by' .jctl).jctl.recordsLost ++ be32 (by' .jctl).jctl.framesClosed ++
    be32 (by' .ltx).ltx.retransmitted ++
    be32 (by' .path).path.writesRefused ++ be16 (by' .path).path.stallExpiries ++
    be16 (by' .path).path.writeFailures ++ be16 (by' .path).path.unmatchedResponses ++
    be16 (by' .cmd).cmd.commandsDiscarded ++
    be16 (by' .lrx).lrx.discards.crc ++ be16 (by' .lrx).lrx.discards.length ++ be16 (by' .lrx).lrx.discards.abort ++
    be16 (by' .lrx).lrx.discards.escape ++ be16 (by' .lrx).lrx.discards.kind ++
    be16 (by' .lrx).lrx.discards.state ++ be16 (by' .dlv).dlv.range
  let formed := fun (tag : Byte) (by' : Config.StatusOwner → State) (v : State) =>
    let t := v.replied tag 0x06 .ok (data by')
    if v.lctl.link = .up ∨ v.wires.falling.cmd = true then t else { t with cmd := { t.cmd with replies := v.cmd.replies } }
  (∀ (tag clear : Byte) (s : State), s.acceptsTag tag → s.isNext (.command tag 0x06 [clear]) →
    let u : State := { s with wires := { s.wires with handedOn := none } }
    (clear = 0x00 ∨ clear = 0x01 → exec (.getStatus tag [clear]) s = nextOf { u with
      cmd := { s.cmd with execState := .executing, reading := some ⟨tag, decide (clear = 0x01), [], 0⟩ } }) ∧
    (clear ≠ 0x00 → clear ≠ 0x01 → exec (.getStatus tag [clear]) s = .next (u.replied tag 0x06 .badValue []))) ∧
  (∀ by' : Config.StatusOwner → State, (data by').length = 64) ∧
  ∀ (v : State) (r : StatusReading), v.cmd.reading = some r →
    let claiming := fun (x : State) => ∃ q a body, x.path.state = .claiming q a body
    (∀ now : Config.StatusOwner → Bool,
      (∀ o, now o = true ↔ Config.answersNow v.choices o = true ∧ r.answerOf o = none ∧ (o = .path → ¬ claiming v)) →
      let after := { cleared (fun o => r.clear = true ∧ now o = true) v with choices := v.choices + 1 }
      ∃ q : StatusReading, q.tag = r.tag ∧ q.clear = r.clear ∧ q.periods = r.periods ∧
        (∀ o, q.answerOf o = if now o then some (v.answer o) else r.answerOf o) ∧
        ((∃ o, q.answerOf o = none) → v.ownersAnswer = { after with cmd := { after.cmd with reading := some q } }) ∧
        (∀ by' : Config.StatusOwner → State, (∀ o, q.answerOf o = some ((by' o).answer o)) →
          v.ownersAnswer = formed r.tag by' after)) ∧
    (let w := if r.answerOf .path = none then v.settlePath else v
     (¬ claiming v → w = v) ∧ (claiming v → r.answerOf .path = none → w = v.takePathClaims ∧ ¬ claiming w) ∧
     ∀ by' : Config.StatusOwner → State,
      (∀ o, r.answerOf o = some ((by' o).answer o) ∨ (r.answerOf o = none ∧ by' o = w)) →
      v.finishStatus = formed r.tag by' (cleared (fun o => r.clear = true ∧ r.answerOf o = none) w))

/-- CLEAR_ALERTS clears each flag whose bit is 1 in the mask and leaves the others; bits 6 and 7 have no effect (R162,
R172). ALERT_N is low exactly while some flag set has its bit 1 in ALERT-ENABLE (R171). The body no longer waits (log
9), and the entry to DOWN is an event of the unit's own (log 22). -/
def Obligations.AlertsAreClearedByMask : Prop :=
  (∀ (tag mask : Byte) (s : State), s.acceptsTag tag → s.isNext (.command tag 0x07 [mask]) →
    ∃ flags : BitVec 6, (∀ i < 6, flags.getLsbD i = (s.alr.flags.getLsbD i && !mask.getLsbD i)) ∧
      exec (.clearAlerts tag [mask]) s = .next
        (({ s with wires := { s.wires with handedOn := none }
                   alr := { s.alr with flags := flags } } : State).replied tag 0x07 .ok [])) ∧
  (∀ s : State, s.alertLow = true ↔ ∃ i < 6, s.alr.flags.getLsbD i = true ∧ s.alr.enable.getLsbD i = true)

/-- FLUSH closes the OPEN frame with cause FLUSH and answers OK, or, with none held, changes nothing and answers
EMPTY; it sends no frame and leaves the pending loss (R72, R74, R163). The body no longer waits (log 9), and the entry
to DOWN is an event of the unit's own (log 22). -/
def Obligations.FlushClosesTheOpenFrame : Prop :=
  ∀ (tag : Byte) (s : State), s.acceptsTag tag → s.isNext (.command tag 0x08 []) →
    let u : State := { s with wires := { s.wires with handedOn := none } }
    (∀ f, s.jctl.openFrame = some f → exec (.flush tag []) s = .next (({ u with jctl := { s.jctl with
      frames := s.jctl.frames ++ [{ seq := f.seq, state := .closed, baseTime := f.baseTime, records := f.records,
                                    closeCause := .flush, sentBefore := false, retryCount := 0 }]
      openFrame := none, idleTimer := none, framesClosed := satInc s.jctl.framesClosed } } : State).replied tag 0x08 .ok [])) ∧
    (s.jctl.openFrame = none → exec (.flush tag []) s = .next (u.replied tag 0x08 .empty []))

/-- MARK claims a MARK record of origin 4 with its code under DROP, with close option MARK for close 01h, and answers
OK with the recorded flag; a close byte other than 00h and 01h is answered BAD-VALUE and claims nothing (R51, R164).
The body no longer waits (log 9), and the entry to DOWN is an event of the unit's own (log 22). -/
def Obligations.MarkClaimsARecord : Prop :=
  ∀ (tag high low close : Byte) (s : State), s.acceptsTag tag → s.isNext (.command tag 0x09 [high, low, close]) →
    let u : State := { s with wires := { s.wires with handedOn := none } }
    (close = 0x00 ∨ close = 0x01 →
      let c := u.claim { body := .mark .recorder (high ++ low), policy := .drop
                         close := if close = 0x01 then .mark else .none }
      exec (.mark tag [high, low, close]) s =
        .next (c.1.replied tag 0x09 .ok [if c.2 = .appended then 0x01 else 0x00])) ∧
    (close ≠ 0x00 → close ≠ 0x01 →
      exec (.mark tag [high, low, close]) s = .next (u.replied tag 0x09 .badValue []))

/-- FREEZE sets command freeze and answers OK; THAW clears it and answers OK, or PIN-HELD while pin freeze is on; a
FREEZE record of cause COMMAND is claimed exactly when the effective state changes, and the FREEZE alert is set when
it turns on (R97 to R99, R166). The claim waits (log 5), the body no longer waits (log 9), and the entry to DOWN is
an event of the unit's own (log 22). -/
def Obligations.FreezeAndThawAreTaken : Prop :=
  ∀ (tag : Byte) (s : State), s.acceptsTag tag →
    let u : State := { s with wires := { s.wires with handedOn := none } }
    let claim := fun (on : Bool) =>
      WaitingClaim.mk .freezeUnit { body := .freeze on .command, policy := .drop, close := .none }
    (s.isNext (.command tag 0x0A []) → s.frzu.commandFreeze = false → s.frzu.filter.level = false →
      exec (.freeze tag []) s = .next (({ u with
        frzu := { s.frzu with commandFreeze := true }
        wires := { u.wires with claims := s.wires.claims ++ [claim true] }
        alr := { s.alr with flags := s.alr.flags ||| 0b100000 } } : State).replied tag 0x0A .ok [])) ∧
    (s.isNext (.command tag 0x0A []) → (s.frzu.commandFreeze = true ∨ s.frzu.filter.level = true) →
      exec (.freeze tag []) s = .next
        (({ u with frzu := { s.frzu with commandFreeze := true } } : State).replied tag 0x0A .ok [])) ∧
    (s.isNext (.command tag 0x0B []) → s.frzu.filter.level = false → s.frzu.commandFreeze = true →
      exec (.thaw tag []) s = .next (({ u with
        frzu := { s.frzu with commandFreeze := false }
        wires := { u.wires with claims := s.wires.claims ++ [claim false] } } : State).replied tag 0x0B .ok [])) ∧
    (s.isNext (.command tag 0x0B []) → s.frzu.filter.level = false → s.frzu.commandFreeze = false →
      exec (.thaw tag []) s = .next (u.replied tag 0x0B .ok [])) ∧
    (s.isNext (.command tag 0x0B []) → s.frzu.filter.level = true →
      exec (.thaw tag []) s = .next
        (({ u with frzu := { s.frzu with commandFreeze := false } } : State).replied tag 0x0B .pinHeld []))

/-- RESTART_JOURNAL aborts a SENDING body, discards every frame, sets pending loss and next sequence to 0, raises the
epoch, stops the idle-close and acknowledgment timers, reports space freed, and answers OK with the new epoch; the
counters, the parameters and everything else stay (R80, R81, R147, R165). The space-freed report waits only in HOLD
(log 8), the body no longer waits (log 9), the entry to DOWN is an event of the unit's own (log 22), and with the abort the
mark of an awaited second byte, the bytes sent and the check value go back (log 25, log 27). -/
def Obligations.RestartEmptiesTheJournal : Prop :=
  ∀ (tag : Byte) (s : State), s.acceptsTag tag → s.isNext (.command tag 0x0C []) → s.bodyMatchesFrame →
    let u : State := { s with wires := { s.wires with handedOn := none } }
    exec (.restartJournal tag []) s = .next (({ u with
      ltx := s.abortedLine
      jctl := { s.jctl with frames := [], openFrame := none, nextSeq := 0, epoch := s.jctl.epoch + 1, pendingLoss := 0
                            idleTimer := none }
      dlv := { s.dlv with ackTimer := none }
      wires := { u.wires with spaceFreed := u.wires.spaceFreed + if s.path.inHold = true then 1 else 0 } } : State).replied
        tag 0x0C .ok (be16 (s.jctl.epoch + 1)))

end
end

