-- ==== Sys2Proof/Laws/State.lean ====
section
/-! SUPPORT. What each replacement of one part of the state leaves in each of the sixteen fields: all true by `rfl`, so that
no proof unfolds a record update. -/

namespace Sys2Proof.Machine

/-- The fields after `State.withPath`. -/
@[simp] theorem State.withPath_fields (s : State) (x : Path) :
    (s.withPath x).path = x ∧ (s.withPath x).wtab = s.wtab ∧ (s.withPath x).jctl = s.jctl ∧
    (s.withPath x).tbs = s.tbs ∧ (s.withPath x).mrk = s.mrk ∧ (s.withPath x).frzu = s.frzu ∧
    (s.withPath x).lrx = s.lrx ∧ (s.withPath x).lctl = s.lctl ∧ (s.withPath x).ltx = s.ltx ∧
    (s.withPath x).dlv = s.dlv ∧ (s.withPath x).cmd = s.cmd ∧ (s.withPath x).alr = s.alr ∧
    (s.withPath x).pins = s.pins ∧ (s.withPath x).wires = s.wires ∧ (s.withPath x).pending = s.pending ∧
    (s.withPath x).choices = s.choices :=
  ⟨rfl, rfl, rfl, rfl, rfl, rfl, rfl, rfl, rfl, rfl, rfl, rfl, rfl, rfl, rfl, rfl⟩

/-- The fields after `State.withWtab`. -/
@[simp] theorem State.withWtab_fields (s : State) (x : WatchTable) :
    (s.withWtab x).path = s.path ∧ (s.withWtab x).wtab = x ∧ (s.withWtab x).jctl = s.jctl ∧
    (s.withWtab x).tbs = s.tbs ∧ (s.withWtab x).mrk = s.mrk ∧ (s.withWtab x).frzu = s.frzu ∧
    (s.withWtab x).lrx = s.lrx ∧ (s.withWtab x).lctl = s.lctl ∧ (s.withWtab x).ltx = s.ltx ∧
    (s.withWtab x).dlv = s.dlv ∧ (s.withWtab x).cmd = s.cmd ∧ (s.withWtab x).alr = s.alr ∧
    (s.withWtab x).pins = s.pins ∧ (s.withWtab x).wires = s.wires ∧ (s.withWtab x).pending = s.pending ∧
    (s.withWtab x).choices = s.choices :=
  ⟨rfl, rfl, rfl, rfl, rfl, rfl, rfl, rfl, rfl, rfl, rfl, rfl, rfl, rfl, rfl, rfl⟩

/-- The fields after `State.withJctl`. -/
@[simp] theorem State.withJctl_fields (s : State) (x : Journal) :
    (s.withJctl x).path = s.path ∧ (s.withJctl x).wtab = s.wtab ∧ (s.withJctl x).jctl = x ∧
    (s.withJctl x).tbs = s.tbs ∧ (s.withJctl x).mrk = s.mrk ∧ (s.withJctl x).frzu = s.frzu ∧
    (s.withJctl x).lrx = s.lrx ∧ (s.withJctl x).lctl = s.lctl ∧ (s.withJctl x).ltx = s.ltx ∧
    (s.withJctl x).dlv = s.dlv ∧ (s.withJctl x).cmd = s.cmd ∧ (s.withJctl x).alr = s.alr ∧
    (s.withJctl x).pins = s.pins ∧ (s.withJctl x).wires = s.wires ∧ (s.withJctl x).pending = s.pending ∧
    (s.withJctl x).choices = s.choices :=
  ⟨rfl, rfl, rfl, rfl, rfl, rfl, rfl, rfl, rfl, rfl, rfl, rfl, rfl, rfl, rfl, rfl⟩

/-- The fields after `State.withTbs`. -/
@[simp] theorem State.withTbs_fields (s : State) (x : Timebase) :
    (s.withTbs x).path = s.path ∧ (s.withTbs x).wtab = s.wtab ∧ (s.withTbs x).jctl = s.jctl ∧ (s.withTbs x).tbs = x ∧
    (s.withTbs x).mrk = s.mrk ∧ (s.withTbs x).frzu = s.frzu ∧ (s.withTbs x).lrx = s.lrx ∧
    (s.withTbs x).lctl = s.lctl ∧ (s.withTbs x).ltx = s.ltx ∧ (s.withTbs x).dlv = s.dlv ∧ (s.withTbs x).cmd = s.cmd ∧
    (s.withTbs x).alr = s.alr ∧ (s.withTbs x).pins = s.pins ∧ (s.withTbs x).wires = s.wires ∧
    (s.withTbs x).pending = s.pending ∧ (s.withTbs x).choices = s.choices :=
  ⟨rfl, rfl, rfl, rfl, rfl, rfl, rfl, rfl, rfl, rfl, rfl, rfl, rfl, rfl, rfl, rfl⟩

/-- The fields after `State.withMrk`. -/
@[simp] theorem State.withMrk_fields (s : State) (x : MarkerUnit) :
    (s.withMrk x).path = s.path ∧ (s.withMrk x).wtab = s.wtab ∧ (s.withMrk x).jctl = s.jctl ∧
    (s.withMrk x).tbs = s.tbs ∧ (s.withMrk x).mrk = x ∧ (s.withMrk x).frzu = s.frzu ∧ (s.withMrk x).lrx = s.lrx ∧
    (s.withMrk x).lctl = s.lctl ∧ (s.withMrk x).ltx = s.ltx ∧ (s.withMrk x).dlv = s.dlv ∧ (s.withMrk x).cmd = s.cmd ∧
    (s.withMrk x).alr = s.alr ∧ (s.withMrk x).pins = s.pins ∧ (s.withMrk x).wires = s.wires ∧
    (s.withMrk x).pending = s.pending ∧ (s.withMrk x).choices = s.choices :=
  ⟨rfl, rfl, rfl, rfl, rfl, rfl, rfl, rfl, rfl, rfl, rfl, rfl, rfl, rfl, rfl, rfl⟩

/-- The fields after `State.withFrzu`. -/
@[simp] theorem State.withFrzu_fields (s : State) (x : FreezeUnit) :
    (s.withFrzu x).path = s.path ∧ (s.withFrzu x).wtab = s.wtab ∧ (s.withFrzu x).jctl = s.jctl ∧
    (s.withFrzu x).tbs = s.tbs ∧ (s.withFrzu x).mrk = s.mrk ∧ (s.withFrzu x).frzu = x ∧ (s.withFrzu x).lrx = s.lrx ∧
    (s.withFrzu x).lctl = s.lctl ∧ (s.withFrzu x).ltx = s.ltx ∧ (s.withFrzu x).dlv = s.dlv ∧
    (s.withFrzu x).cmd = s.cmd ∧ (s.withFrzu x).alr = s.alr ∧ (s.withFrzu x).pins = s.pins ∧
    (s.withFrzu x).wires = s.wires ∧ (s.withFrzu x).pending = s.pending ∧ (s.withFrzu x).choices = s.choices :=
  ⟨rfl, rfl, rfl, rfl, rfl, rfl, rfl, rfl, rfl, rfl, rfl, rfl, rfl, rfl, rfl, rfl⟩

/-- The fields after `State.withLrx`. -/
@[simp] theorem State.withLrx_fields (s : State) (x : LinkReceiver) :
    (s.withLrx x).path = s.path ∧ (s.withLrx x).wtab = s.wtab ∧ (s.withLrx x).jctl = s.jctl ∧
    (s.withLrx x).tbs = s.tbs ∧ (s.withLrx x).mrk = s.mrk ∧ (s.withLrx x).frzu = s.frzu ∧ (s.withLrx x).lrx = x ∧
    (s.withLrx x).lctl = s.lctl ∧ (s.withLrx x).ltx = s.ltx ∧ (s.withLrx x).dlv = s.dlv ∧ (s.withLrx x).cmd = s.cmd ∧
    (s.withLrx x).alr = s.alr ∧ (s.withLrx x).pins = s.pins ∧ (s.withLrx x).wires = s.wires ∧
    (s.withLrx x).pending = s.pending ∧ (s.withLrx x).choices = s.choices :=
  ⟨rfl, rfl, rfl, rfl, rfl, rfl, rfl, rfl, rfl, rfl, rfl, rfl, rfl, rfl, rfl, rfl⟩

/-- The fields after `State.withLctl`. -/
@[simp] theorem State.withLctl_fields (s : State) (x : LinkController) :
    (s.withLctl x).path = s.path ∧ (s.withLctl x).wtab = s.wtab ∧ (s.withLctl x).jctl = s.jctl ∧
    (s.withLctl x).tbs = s.tbs ∧ (s.withLctl x).mrk = s.mrk ∧ (s.withLctl x).frzu = s.frzu ∧
    (s.withLctl x).lrx = s.lrx ∧ (s.withLctl x).lctl = x ∧ (s.withLctl x).ltx = s.ltx ∧ (s.withLctl x).dlv = s.dlv ∧
    (s.withLctl x).cmd = s.cmd ∧ (s.withLctl x).alr = s.alr ∧ (s.withLctl x).pins = s.pins ∧
    (s.withLctl x).wires = s.wires ∧ (s.withLctl x).pending = s.pending ∧ (s.withLctl x).choices = s.choices :=
  ⟨rfl, rfl, rfl, rfl, rfl, rfl, rfl, rfl, rfl, rfl, rfl, rfl, rfl, rfl, rfl, rfl⟩

/-- The fields after `State.withLtx`. -/
@[simp] theorem State.withLtx_fields (s : State) (x : LinkTransmitter) :
    (s.withLtx x).path = s.path ∧ (s.withLtx x).wtab = s.wtab ∧ (s.withLtx x).jctl = s.jctl ∧
    (s.withLtx x).tbs = s.tbs ∧ (s.withLtx x).mrk = s.mrk ∧ (s.withLtx x).frzu = s.frzu ∧ (s.withLtx x).lrx = s.lrx ∧
    (s.withLtx x).lctl = s.lctl ∧ (s.withLtx x).ltx = x ∧ (s.withLtx x).dlv = s.dlv ∧ (s.withLtx x).cmd = s.cmd ∧
    (s.withLtx x).alr = s.alr ∧ (s.withLtx x).pins = s.pins ∧ (s.withLtx x).wires = s.wires ∧
    (s.withLtx x).pending = s.pending ∧ (s.withLtx x).choices = s.choices :=
  ⟨rfl, rfl, rfl, rfl, rfl, rfl, rfl, rfl, rfl, rfl, rfl, rfl, rfl, rfl, rfl, rfl⟩

/-- The fields after `State.withDlv`. -/
@[simp] theorem State.withDlv_fields (s : State) (x : Delivery) :
    (s.withDlv x).path = s.path ∧ (s.withDlv x).wtab = s.wtab ∧ (s.withDlv x).jctl = s.jctl ∧
    (s.withDlv x).tbs = s.tbs ∧ (s.withDlv x).mrk = s.mrk ∧ (s.withDlv x).frzu = s.frzu ∧ (s.withDlv x).lrx = s.lrx ∧
    (s.withDlv x).lctl = s.lctl ∧ (s.withDlv x).ltx = s.ltx ∧ (s.withDlv x).dlv = x ∧ (s.withDlv x).cmd = s.cmd ∧
    (s.withDlv x).alr = s.alr ∧ (s.withDlv x).pins = s.pins ∧ (s.withDlv x).wires = s.wires ∧
    (s.withDlv x).pending = s.pending ∧ (s.withDlv x).choices = s.choices :=
  ⟨rfl, rfl, rfl, rfl, rfl, rfl, rfl, rfl, rfl, rfl, rfl, rfl, rfl, rfl, rfl, rfl⟩

/-- The fields after `State.withCmd`. -/
@[simp] theorem State.withCmd_fields (s : State) (x : CommandUnit) :
    (s.withCmd x).path = s.path ∧ (s.withCmd x).wtab = s.wtab ∧ (s.withCmd x).jctl = s.jctl ∧
    (s.withCmd x).tbs = s.tbs ∧ (s.withCmd x).mrk = s.mrk ∧ (s.withCmd x).frzu = s.frzu ∧ (s.withCmd x).lrx = s.lrx ∧
    (s.withCmd x).lctl = s.lctl ∧ (s.withCmd x).ltx = s.ltx ∧ (s.withCmd x).dlv = s.dlv ∧ (s.withCmd x).cmd = x ∧
    (s.withCmd x).alr = s.alr ∧ (s.withCmd x).pins = s.pins ∧ (s.withCmd x).wires = s.wires ∧
    (s.withCmd x).pending = s.pending ∧ (s.withCmd x).choices = s.choices :=
  ⟨rfl, rfl, rfl, rfl, rfl, rfl, rfl, rfl, rfl, rfl, rfl, rfl, rfl, rfl, rfl, rfl⟩

/-- The fields after `State.withAlr`. -/
@[simp] theorem State.withAlr_fields (s : State) (x : AlertUnit) :
    (s.withAlr x).path = s.path ∧ (s.withAlr x).wtab = s.wtab ∧ (s.withAlr x).jctl = s.jctl ∧
    (s.withAlr x).tbs = s.tbs ∧ (s.withAlr x).mrk = s.mrk ∧ (s.withAlr x).frzu = s.frzu ∧ (s.withAlr x).lrx = s.lrx ∧
    (s.withAlr x).lctl = s.lctl ∧ (s.withAlr x).ltx = s.ltx ∧ (s.withAlr x).dlv = s.dlv ∧ (s.withAlr x).cmd = s.cmd ∧
    (s.withAlr x).alr = x ∧ (s.withAlr x).pins = s.pins ∧ (s.withAlr x).wires = s.wires ∧
    (s.withAlr x).pending = s.pending ∧ (s.withAlr x).choices = s.choices :=
  ⟨rfl, rfl, rfl, rfl, rfl, rfl, rfl, rfl, rfl, rfl, rfl, rfl, rfl, rfl, rfl, rfl⟩

/-- The fields after `State.withPins`. -/
@[simp] theorem State.withPins_fields (s : State) (x : Pins) :
    (s.withPins x).path = s.path ∧ (s.withPins x).wtab = s.wtab ∧ (s.withPins x).jctl = s.jctl ∧
    (s.withPins x).tbs = s.tbs ∧ (s.withPins x).mrk = s.mrk ∧ (s.withPins x).frzu = s.frzu ∧
    (s.withPins x).lrx = s.lrx ∧ (s.withPins x).lctl = s.lctl ∧ (s.withPins x).ltx = s.ltx ∧
    (s.withPins x).dlv = s.dlv ∧ (s.withPins x).cmd = s.cmd ∧ (s.withPins x).alr = s.alr ∧ (s.withPins x).pins = x ∧
    (s.withPins x).wires = s.wires ∧ (s.withPins x).pending = s.pending ∧ (s.withPins x).choices = s.choices :=
  ⟨rfl, rfl, rfl, rfl, rfl, rfl, rfl, rfl, rfl, rfl, rfl, rfl, rfl, rfl, rfl, rfl⟩

/-- The fields after `State.withWires`. -/
@[simp] theorem State.withWires_fields (s : State) (x : Wires) :
    (s.withWires x).path = s.path ∧ (s.withWires x).wtab = s.wtab ∧ (s.withWires x).jctl = s.jctl ∧
    (s.withWires x).tbs = s.tbs ∧ (s.withWires x).mrk = s.mrk ∧ (s.withWires x).frzu = s.frzu ∧
    (s.withWires x).lrx = s.lrx ∧ (s.withWires x).lctl = s.lctl ∧ (s.withWires x).ltx = s.ltx ∧
    (s.withWires x).dlv = s.dlv ∧ (s.withWires x).cmd = s.cmd ∧ (s.withWires x).alr = s.alr ∧
    (s.withWires x).pins = s.pins ∧ (s.withWires x).wires = x ∧ (s.withWires x).pending = s.pending ∧
    (s.withWires x).choices = s.choices :=
  ⟨rfl, rfl, rfl, rfl, rfl, rfl, rfl, rfl, rfl, rfl, rfl, rfl, rfl, rfl, rfl, rfl⟩

/-- The fields after `State.withPending`. -/
@[simp] theorem State.withPending_fields (s : State) (x : List Instr) :
    (s.withPending x).path = s.path ∧ (s.withPending x).wtab = s.wtab ∧ (s.withPending x).jctl = s.jctl ∧
    (s.withPending x).tbs = s.tbs ∧ (s.withPending x).mrk = s.mrk ∧ (s.withPending x).frzu = s.frzu ∧
    (s.withPending x).lrx = s.lrx ∧ (s.withPending x).lctl = s.lctl ∧ (s.withPending x).ltx = s.ltx ∧
    (s.withPending x).dlv = s.dlv ∧ (s.withPending x).cmd = s.cmd ∧ (s.withPending x).alr = s.alr ∧
    (s.withPending x).pins = s.pins ∧ (s.withPending x).wires = s.wires ∧ (s.withPending x).pending = x ∧
    (s.withPending x).choices = s.choices :=
  ⟨rfl, rfl, rfl, rfl, rfl, rfl, rfl, rfl, rfl, rfl, rfl, rfl, rfl, rfl, rfl, rfl⟩

/-- The fields after `State.withChoices`. -/
@[simp] theorem State.withChoices_fields (s : State) (x : Nat) :
    (s.withChoices x).path = s.path ∧ (s.withChoices x).wtab = s.wtab ∧ (s.withChoices x).jctl = s.jctl ∧
    (s.withChoices x).tbs = s.tbs ∧ (s.withChoices x).mrk = s.mrk ∧ (s.withChoices x).frzu = s.frzu ∧
    (s.withChoices x).lrx = s.lrx ∧ (s.withChoices x).lctl = s.lctl ∧ (s.withChoices x).ltx = s.ltx ∧
    (s.withChoices x).dlv = s.dlv ∧ (s.withChoices x).cmd = s.cmd ∧ (s.withChoices x).alr = s.alr ∧
    (s.withChoices x).pins = s.pins ∧ (s.withChoices x).wires = s.wires ∧ (s.withChoices x).pending = s.pending ∧
    (s.withChoices x).choices = x :=
  ⟨rfl, rfl, rfl, rfl, rfl, rfl, rfl, rfl, rfl, rfl, rfl, rfl, rfl, rfl, rfl, rfl⟩

/-- Replacing a part twice leaves the later one. -/
@[simp] theorem State.withPath_withPath (s : State) (x y : Path) : (s.withPath x).withPath y = s.withPath y := rfl

/-- A part put back leaves the state as it was. -/
@[simp] theorem State.withPath_self (s : State) : s.withPath s.path = s := rfl

/-- A part put back leaves the state as it was. -/
@[simp] theorem State.withWires_self (s : State) : s.withWires s.wires = s := rfl

/-- The state after cold reset holds the pin levels it was given, and no command and no message waits. -/
@[simp] theorem State.afterReset_waiting (p : Pins) :
    (State.afterReset p).pins = p ∧ (State.afterReset p).pending = [] ∧ (State.afterReset p).wires = Wires.reset :=
  ⟨rfl, rfl, rfl⟩

end Sys2Proof.Machine
end

