-- ==== Sys2Proof/Laws/Ops.lean ====
section
/-! SUPPORT. What each shared operation of Machine/Ops.lean and Machine/Flags.lean can do, once. -/

namespace Sys2Proof.Machine

/-! ### Counters and timers -/

/-- A saturating counter rises by one and stops at its largest value. -/
theorem satInc_toNat {w : Nat} (x : BitVec w) : (satInc x).toNat = min (x.toNat + 1) (2 ^ w - 1) := by
  unfold satInc
  have hx := x.isLt
  split
  · next h => subst h; simp
  · next h =>
    have hne : x.toNat ≠ 2 ^ w - 1 := fun he => h (BitVec.eq_of_toNat_eq (by simpa using he))
    rw [BitVec.toNat_add]
    rcases Nat.eq_zero_or_pos w with h0 | h0
    · subst h0; simp at hx hne; omega
    · have h2 : 2 ≤ 2 ^ w := by
        calc 2 = 2 ^ 1 := rfl
          _ ≤ 2 ^ w := Nat.pow_le_pow_right (by omega) h0
      have h1 : (1 : BitVec w).toNat = 1 := by
        change (BitVec.ofNat w 1).toNat = 1
        rw [BitVec.toNat_ofNat, Nat.mod_eq_of_lt (by omega)]
      rw [h1, Nat.mod_eq_of_lt (by omega)]
      omega

/-- A stopped timer stays stopped, a running one has one tick less to go. -/
@[simp] theorem tickTimer_none : tickTimer none = none := rfl

/-- A stopped timer stays stopped, a running one has one tick less to go. -/
@[simp] theorem tickTimer_some (n : Nat) : tickTimer (some n) = some (n - 1) := rfl

/-- An expiry is due exactly when the timer runs with no tick left. -/
@[simp] theorem expiryDue_iff (t : Timer) : expiryDue t = true ↔ t = some 0 := by
  simp [expiryDue]

/-! ### Messages and alerts -/

/-- The fields after an alert is set. -/
@[simp] theorem State.setAlert_fields (f : BitVec 6) (s : State) :
    (s.setAlert f).path = s.path ∧ (s.setAlert f).wtab = s.wtab ∧ (s.setAlert f).jctl = s.jctl ∧
    (s.setAlert f).tbs = s.tbs ∧ (s.setAlert f).mrk = s.mrk ∧ (s.setAlert f).frzu = s.frzu ∧
    (s.setAlert f).lrx = s.lrx ∧ (s.setAlert f).lctl = s.lctl ∧ (s.setAlert f).ltx = s.ltx ∧
    (s.setAlert f).dlv = s.dlv ∧ (s.setAlert f).cmd = s.cmd ∧
    (s.setAlert f).alr = { s.alr with flags := s.alr.flags ||| f } ∧ (s.setAlert f).pins = s.pins ∧
    (s.setAlert f).wires = s.wires ∧ (s.setAlert f).pending = s.pending ∧ (s.setAlert f).choices = s.choices :=
  ⟨rfl, rfl, rfl, rfl, rfl, rfl, rfl, rfl, rfl, rfl, rfl, rfl, rfl, rfl, rfl, rfl⟩

/-- The fields after a claim is posted. -/
@[simp] theorem State.postClaim_fields (who : Claimant) (c : Claim) (s : State) :
    (s.postClaim who c).path = s.path ∧ (s.postClaim who c).wtab = s.wtab ∧ (s.postClaim who c).jctl = s.jctl ∧
    (s.postClaim who c).tbs = s.tbs ∧ (s.postClaim who c).mrk = s.mrk ∧ (s.postClaim who c).frzu = s.frzu ∧
    (s.postClaim who c).lrx = s.lrx ∧ (s.postClaim who c).lctl = s.lctl ∧ (s.postClaim who c).ltx = s.ltx ∧
    (s.postClaim who c).dlv = s.dlv ∧ (s.postClaim who c).cmd = s.cmd ∧ (s.postClaim who c).alr = s.alr ∧
    (s.postClaim who c).pins = s.pins ∧
    (s.postClaim who c).wires = { s.wires with claims := s.wires.claims ++ [⟨who, c⟩] } ∧
    (s.postClaim who c).pending = s.pending ∧ (s.postClaim who c).choices = s.choices :=
  ⟨rfl, rfl, rfl, rfl, rfl, rfl, rfl, rfl, rfl, rfl, rfl, rfl, rfl, rfl, rfl, rfl⟩

/-- The fields once no handed-on body waits. -/
@[simp] theorem State.handedOff_fields (s : State) :
    s.handedOff.path = s.path ∧ s.handedOff.wtab = s.wtab ∧ s.handedOff.jctl = s.jctl ∧ s.handedOff.tbs = s.tbs ∧
    s.handedOff.mrk = s.mrk ∧ s.handedOff.frzu = s.frzu ∧ s.handedOff.lrx = s.lrx ∧ s.handedOff.lctl = s.lctl ∧
    s.handedOff.ltx = s.ltx ∧ s.handedOff.dlv = s.dlv ∧ s.handedOff.cmd = s.cmd ∧ s.handedOff.alr = s.alr ∧
    s.handedOff.pins = s.pins ∧ s.handedOff.wires = { s.wires with handedOn := none } ∧
    s.handedOff.pending = s.pending ∧ s.handedOff.choices = s.choices :=
  ⟨rfl, rfl, rfl, rfl, rfl, rfl, rfl, rfl, rfl, rfl, rfl, rfl, rfl, rfl, rfl, rfl⟩

/-- With no body waiting there is none to take off. -/
theorem State.handedOff_none (s : State) (h : s.wires.handedOn = none) : s.handedOff = s := by
  rcases s with ⟨_, _, _, _, _, _, _, _, _, _, _, _, _, ⟨_, _, _, _, _, _, _, _⟩, _, _⟩
  cases h
  rfl

/-- All that the taking of a handed-on body can do: the act, on the state in which it no longer waits, or, while another
body waits, nothing. -/
theorem State.takeHanded_cases (b : Body) (act : State → State) (s : State) :
    ((s.wires.handedOn = none ∨ s.wires.handedOn = some b) ∧ s.takeHanded b act = act s.handedOff) ∨
    (∃ c, s.wires.handedOn = some c ∧ c ≠ b ∧ s.takeHanded b act = s) := by
  unfold State.takeHanded
  split
  · next c h =>
    by_cases hc : c = b
    · subst hc; exact .inl ⟨.inr h, by simp⟩
    · exact .inr ⟨c, h, hc, by simp [hc]⟩
  · next h => exact .inl ⟨.inl h, rfl⟩

/-- A body that is the next one: the act follows. -/
theorem State.takeHanded_next (b : Body) (act : State → State) (s : State)
    (h : s.wires.handedOn = none ∨ s.wires.handedOn = some b) : s.takeHanded b act = act s.handedOff := by
  rcases State.takeHanded_cases b act s with ⟨-, h'⟩ | ⟨c, hc, hne, -⟩
  · exact h'
  · rcases h with h | h <;> rw [hc] at h <;> simp_all

/-- A space-freed report changes nothing but the count of waiting reports. -/
theorem State.sendSpaceFreed_eq (s : State) :
    s.sendSpaceFreed =
      s.withWires { s.wires with spaceFreed := s.wires.spaceFreed + if s.path.inHold then 1 else 0 } := by
  unfold State.sendSpaceFreed
  split <;> rfl

/-! ### Claims -/

/-- Closing leaves the figures that a claim is judged by, and no frame is OPEN. -/
@[simp] theorem Journal.closeOpen_kept (cause : CloseCause) (j : Journal) :
    (j.closeOpen cause).openFrame = none ∧ (j.closeOpen cause).nextSeq = j.nextSeq ∧
    (j.closeOpen cause).epoch = j.epoch ∧ (j.closeOpen cause).pendingLoss = j.pendingLoss ∧
    (j.closeOpen cause).frameLimit = j.frameLimit ∧ (j.closeOpen cause).idleClose = j.idleClose ∧
    (j.closeOpen cause).recordsAppended = j.recordsAppended ∧ (j.closeOpen cause).recordsLost = j.recordsLost := by
  unfold Journal.closeOpen
  split
  · next h => exact ⟨h, rfl, rfl, rfl, rfl, rfl, rfl, rfl⟩
  · exact ⟨rfl, rfl, rfl, rfl, rfl, rfl, rfl, rfl⟩

/-- The test of R64 leaves the journal as it was or closes the OPEN frame with cause AGE or LIMIT. -/
theorem Journal.closeIfUnfit_cases (need : Nat) (j : Journal) :
    j.closeIfUnfit need = j ∨ j.closeIfUnfit need = j.closeOpen .age ∨ j.closeIfUnfit need = j.closeOpen .limit := by
  unfold Journal.closeIfUnfit
  split
  · exact .inl rfl
  · split
    · exact .inr (.inl rfl)
    · split
      · exact .inr (.inr rfl)
      · exact .inl rfl

/-- All that taking a claim can do: the append with its close option, a loss under DROP, or nothing under HOLD, each after
the test of R64. -/
theorem Journal.take_cases (now : BitVec 32) (c : Claim) (j : Journal) :
    let need := j.needed c.body
    let k := j.closeIfUnfit need
    (k.hasRoom need = true ∧ j.take now c = ((k.append now c.body).applyCloseOption c.close, .appended)) ∨
    (k.hasRoom need = false ∧ c.policy = .drop ∧ j.take now c = (k.countLost, .noSpace)) ∨
    (k.hasRoom need = false ∧ c.policy = .hold ∧ j.take now c = (k, .noSpace)) := by
  intro need k
  by_cases h : k.hasRoom need = true
  · exact .inl ⟨h, by simp only [Journal.take]; rw [if_pos h]⟩
  · have hf : k.hasRoom need = false := by simpa using h
    cases hp : c.policy with
    | drop => exact .inr (.inl ⟨hf, rfl, by simp only [Journal.take]; rw [if_neg h, hp]⟩)
    | hold => exact .inr (.inr ⟨hf, rfl, by simp only [Journal.take]; rw [if_neg h, hp]⟩)

/-- A claim at the part is a claim at the journal, with LOSS set exactly when a record is lost under DROP. -/
theorem State.claim_eq (c : Claim) (s : State) :
    s.claim c = (if (s.jctl.take s.tbs.time c).2 = .noSpace ∧ c.policy = .drop
                 then (s.withJctl (s.jctl.take s.tbs.time c).1).setAlert lossFlag
                 else s.withJctl (s.jctl.take s.tbs.time c).1, (s.jctl.take s.tbs.time c).2) := by
  unfold State.claim
  rcases s.jctl.take s.tbs.time c with ⟨k, a⟩
  cases a <;> cases c.policy <;> simp

/-- The fields that a claim leaves alone. -/
@[simp] theorem State.claim_fields (c : Claim) (s : State) :
    (s.claim c).1.path = s.path ∧ (s.claim c).1.wtab = s.wtab ∧ (s.claim c).1.tbs = s.tbs ∧
    (s.claim c).1.mrk = s.mrk ∧ (s.claim c).1.frzu = s.frzu ∧ (s.claim c).1.lrx = s.lrx ∧
    (s.claim c).1.lctl = s.lctl ∧ (s.claim c).1.ltx = s.ltx ∧ (s.claim c).1.dlv = s.dlv ∧
    (s.claim c).1.cmd = s.cmd ∧ (s.claim c).1.pins = s.pins ∧ (s.claim c).1.wires = s.wires ∧
    (s.claim c).1.pending = s.pending ∧ (s.claim c).1.choices = s.choices ∧
    (s.claim c).1.jctl = (s.jctl.take s.tbs.time c).1 := by
  rw [State.claim_eq]
  split <;> exact ⟨rfl, rfl, rfl, rfl, rfl, rfl, rfl, rfl, rfl, rfl, rfl, rfl, rfl, rfl, rfl⟩

/-- A claim leaves ALERT-ENABLE alone. -/
theorem State.claim_enable (c : Claim) (s : State) : (s.claim c).1.alr.enable = s.alr.enable := by
  rw [State.claim_eq]
  simp only
  split <;> simp

/-- Claims taken one after another touch the journal controller and the alert flags alone. -/
theorem foldl_claim_fields (l : List WaitingClaim) (s : State) :
    let t := l.foldl (fun u w => (u.claim w.claim).1) s
    t.path = s.path ∧ t.wtab = s.wtab ∧ t.tbs = s.tbs ∧ t.mrk = s.mrk ∧ t.frzu = s.frzu ∧ t.lrx = s.lrx ∧
    t.lctl = s.lctl ∧ t.ltx = s.ltx ∧ t.dlv = s.dlv ∧ t.cmd = s.cmd ∧ t.pins = s.pins ∧ t.wires = s.wires ∧
    t.pending = s.pending ∧ t.choices = s.choices ∧ t.alr.enable = s.alr.enable := by
  induction l generalizing s with
  | nil => simp
  | cons w l ih => simpa [State.claim_enable] using ih (s.claim w.claim).1

/-- What the taking of the claims of some claimants leaves alone, and the claims that still wait. -/
theorem State.takeClaimsOf_fields (p : Claimant → Bool) (s : State) :
    let t := s.takeClaimsOf p
    t.path = s.path ∧ t.wtab = s.wtab ∧ t.tbs = s.tbs ∧ t.mrk = s.mrk ∧ t.frzu = s.frzu ∧ t.lrx = s.lrx ∧
    t.lctl = s.lctl ∧ t.ltx = s.ltx ∧ t.dlv = s.dlv ∧ t.cmd = s.cmd ∧ t.pins = s.pins ∧
    t.pending = s.pending ∧ t.choices = s.choices ∧ t.alr.enable = s.alr.enable ∧
    t.wires = { s.wires with claims := s.wires.claims.filter (fun w => !p w.claimant) } := by
  simp [State.takeClaimsOf, foldl_claim_fields]

/-- An invariant that a claim keeps, whatever the waiting claims, is kept by the taking of the claims of some claimants. -/
theorem State.takeClaimsOf_keeps (P : State → Prop) (p : Claimant → Bool) (hw : ∀ s w, P s → P (s.withWires w))
    (hc : ∀ s c, P s → P (s.claim c).1) (s : State) (h : P s) : P (s.takeClaimsOf p) := by
  have fold : ∀ (l : List WaitingClaim) (u : State), P u → P (l.foldl (fun t w => (t.claim w.claim).1) u) := by
    intro l
    induction l with
    | nil => exact fun _ hu => hu
    | cons w l ih => exact fun u hu => ih _ (hc u w.claim hu)
  exact fold _ _ (hw s _ h)

/-- With no claim of these claimants waiting none is taken. -/
theorem State.takeClaimsOf_none (p : Claimant → Bool) (s : State) (h : ∀ w ∈ s.wires.claims, p w.claimant = false) :
    s.takeClaimsOf p = s := by
  have h1 : s.wires.claims.filter (fun w => p w.claimant) = [] := by simpa using h
  have h2 : s.wires.claims.filter (fun w => !p w.claimant) = s.wires.claims := by simpa using h
  unfold State.takeClaimsOf
  rw [h1, h2]
  rfl

/-- The claims of some claimants are taken one by one, oldest first. -/
theorem State.takeClaimsOf_step (p : Claimant → Bool) (s : State) (l m : List WaitingClaim) (w : WaitingClaim)
    (hs : s.wires.claims = l ++ w :: m) (hl : ∀ x ∈ l, p x.claimant = false) (hw : p w.claimant = true) :
    s.takeClaimsOf p = (((s.withWires { s.wires with claims := l ++ m }).claim w.claim).1).takeClaimsOf p := by
  have h1 : l.filter (fun x => p x.claimant) = [] := by simpa using hl
  unfold State.takeClaimsOf
  have h2 : ∀ (x : List WaitingClaim),
      ((s.withWires { s.wires with claims := l ++ m }).claim w.claim).1.withWires { s.wires with claims := x } =
        ((s.withWires { s.wires with claims := x }).claim w.claim).1 := by
    intro x
    rw [State.claim_eq, State.claim_eq]
    simp only [State.withWires_fields]
    split <;> rfl
  simp [hs, hw, h1, List.filter_append, h2]

/-- The journal after an append never depends on the OPEN frame's place: one frame is OPEN. -/
@[simp] theorem Journal.append_open (now : BitVec 32) (body : RecordBody) (j : Journal) :
    (j.append now body).openFrame =
      some { j.frameForAppend now with records := (j.frameForAppend now).records ++ j.placedRecords now body } ∧
    (j.append now body).frames = j.frames ∧ (j.append now body).pendingLoss = 0 := ⟨rfl, rfl, rfl⟩

/-! ### Delivery -/

/-- The body in progress ends, with an abort, or the transmitter is left as it was. -/
theorem LinkTransmitter.abortJournal_cases (seq : Seq) (x : LinkTransmitter) :
    x.abortJournal seq = x ∨ x.abortJournal seq = x.abortBody := by
  unfold LinkTransmitter.abortJournal
  split
  · split
    · exact .inr rfl
    · exact .inl rfl
  · exact .inl rfl

/-- The abort of a SENDING frame touches the transmitter alone. -/
theorem State.abortSending_eq (s : State) :
    s.abortSending = s.withLtx (match s.jctl.sendingSeq with
      | some seq => s.ltx.abortJournal seq
      | none     => s.ltx) := by
  unfold State.abortSending
  cases s.jctl.sendingSeq <;> rfl

/-- Taking back touches the transmitter, the frame states and the acknowledgment timer. -/
theorem State.takeBack_eq (s : State) :
    s.takeBack = ((s.withLtx (match s.jctl.sendingSeq with
      | some seq => s.ltx.abortJournal seq
      | none     => s.ltx)).withJctl s.jctl.returnToClosed).withDlv { s.dlv with ackTimer := none } := by
  unfold State.takeBack
  rw [State.abortSending_eq]
  rfl

/-- After a return to CLOSED no frame is SENDING or SENT. -/
theorem Journal.returnToClosed_framesOut (j : Journal) :
    j.returnToClosed.framesOut = 0 ∧ j.returnToClosed.framesSent = 0 := by
  simp [Journal.framesOut, Journal.framesSent, Journal.returnToClosed, returnedFrame, List.countP_map, Function.comp_def]

/-- A return to CLOSED keeps the records, and so the store bytes used. -/
theorem Journal.returnToClosed_storeUsed (j : Journal) : j.returnToClosed.storeUsed = j.storeUsed := by
  simp [Journal.storeUsed, Journal.returnToClosed, returnedFrame, List.map_map, Function.comp_def]

/-- A removal before the oldest held sequence does nothing; any other removes frames and reports the space. -/
theorem State.removeBefore_cases (n : Seq) (s : State) :
    (s.jctl.named n = 0 ∧ s.removeBefore n = s) ∨
    (s.jctl.named n ≠ 0 ∧ s.removeBefore n = (s.withJctl (s.jctl.remove n)).sendSpaceFreed) := by
  unfold State.removeBefore
  split
  · next h => exact .inl ⟨h, rfl⟩
  · next h => exact .inr ⟨h, rfl⟩

end Sys2Proof.Machine
end

