-- ==== Sys2Proof/Laws/Link.lean ====
section
/-! SUPPORT. What the taking of a send end and of a change of the link state at each block can do, once. -/

namespace Sys2Proof.Machine

/-! ### Send ends -/

/-- With no send end waiting the journal controller has none to take. -/
@[simp] theorem State.takeSendEnd_none (s : State) (h : s.wires.sendEnd = false) : s.takeSendEnd = s := by
  simp [State.takeSendEnd, h]

/-- With no send end and no report waiting neither is taken. -/
@[simp] theorem State.finishSendEnd_none (s : State) (h : s.wires.sendEnd = false) (h' : s.wires.sendReport = false) :
    s.finishSendEnd = s := by
  simp [State.finishSendEnd, h, State.takeSendReport, h']

/-- The journal controller's taking of a send end that waits (R76). -/
theorem State.takeSendEnd_eq (s : State) :
    s.takeSendEnd = { s with
      jctl := if s.wires.sendEnd && s.jctl.sendingSeq.isSome then { s.jctl with frames := s.jctl.frames.map sentFrame }
              else s.jctl
      wires := { s.wires with
        sendEnd := false, sendReport := (s.wires.sendEnd && s.jctl.sendingSeq.isSome) || s.wires.sendReport } } := by
  rcases s with ⟨_, _, j, _, _, _, _, _, _, _, _, _, _, ⟨_, _, _, _, _, _, _, b, _⟩, _, _⟩
  cases b
  · rfl
  · simp only [State.takeSendEnd, if_true]
    cases h : j.sendingSeq <;> rfl

/-- The delivery controller's taking of a send-end report that waits (R136). -/
theorem State.takeSendReport_eq (s : State) :
    s.takeSendReport = { s with
      dlv := if s.wires.sendReport && s.dlv.ackTimer.isNone && decide (s.jctl.framesSent ≠ 0) then
               { s.dlv with ackTimer := some s.dlv.ackTimeout } else s.dlv
      wires := { s.wires with sendReport := false } } := by
  rcases s with ⟨_, _, j, _, _, _, _, _, _, ⟨_, t, _, _, _, _⟩, _, _, _, ⟨_, _, _, _, _, _, _, _, b⟩, _, _⟩
  cases b
  · rfl
  · cases t
    · by_cases h : j.framesSent = 0 <;> simp [State.takeSendReport, State.sendEndReport, State.withWires, State.withDlv, h]
    · rfl

/-- What the taking of a send end and its report leaves alone. -/
@[simp] theorem State.finishSendEnd_fields (s : State) :
    let t := s.finishSendEnd
    t.path = s.path ∧ t.wtab = s.wtab ∧ t.tbs = s.tbs ∧ t.mrk = s.mrk ∧ t.frzu = s.frzu ∧ t.lrx = s.lrx ∧
    t.lctl = s.lctl ∧ t.ltx = s.ltx ∧ t.cmd = s.cmd ∧ t.alr = s.alr ∧ t.pins = s.pins ∧
    t.wires = { s.wires with sendEnd := false, sendReport := false } ∧ t.pending = s.pending ∧ t.choices = s.choices := by
  unfold State.finishSendEnd
  rw [State.takeSendReport_eq, State.takeSendEnd_eq]
  exact ⟨rfl, rfl, rfl, rfl, rfl, rfl, rfl, rfl, rfl, rfl, rfl, rfl, rfl, rfl⟩

/-! ### Frame-received reports (R123) -/

/-- With no frame-received report waiting none is taken. -/
@[simp] theorem State.takeFrameReport_none (s : State) (h : s.wires.frameReport = false) : s.takeFrameReport = s := by
  simp [State.takeFrameReport, h]

/-- All that the taking of a frame-received report can do: the report no longer waits, and in TRAINING and UP the silence timer
is started again. -/
theorem State.takeFrameReport_eq (s : State) :
    s.takeFrameReport = { s with
      lctl := if s.wires.frameReport ∧ s.lctl.link ≠ .down then { s.lctl with silenceTimer := some s.lctl.silenceLimit }
              else s.lctl
      wires := { s.wires with frameReport := false } } := by
  rcases s with ⟨_, _, _, _, _, _, _, ⟨l, _, _, _, _⟩, _, _, _, _, _, ⟨_, _, _, _, b, _, _, _, _⟩, _, _⟩
  cases b <;> cases l <;> rfl

/-! ### The entry to DOWN at each block (R127) -/

/-- The link receiver's part. -/
theorem State.lrxTakesDown_eq (s : State) :
    s.lrxTakesDown = { s with
      lrx := if s.wires.falling.lrx then { s.lrx with rx := .notDecoding, settleCount := 0 } else s.lrx
      wires := { s.wires with falling := { s.wires.falling with lrx := false } } } := by
  rcases s with ⟨_, _, _, _, _, _, _, _, _, _, _, _, _, ⟨_, _, _, _, _, ⟨b, _, _, _, _⟩, _, _, _⟩, _, _⟩
  cases b <;> rfl

/-- The link transmitter's part. -/
theorem State.ltxTakesDown_eq (s : State) :
    s.ltxTakesDown = { s with
      ltx := if s.wires.falling.ltx then { s.ltx.abortBody with helloPending := false } else s.ltx
      wires := { s.wires with falling := { s.wires.falling with ltx := false } } } := by
  rcases s with ⟨_, _, _, _, _, _, _, _, _, _, _, _, _, ⟨_, _, _, _, _, ⟨_, b, _, _, _⟩, _, _, _⟩, _, _⟩
  cases b <;> rfl

/-- The command unit's part. -/
theorem State.cmdTakesDown_eq (s : State) :
    s.cmdTakesDown = { s with
      cmd := { s.cmd with replies := if s.wires.falling.cmd then [] else s.cmd.replies }
      wires := { s.wires with falling := { s.wires.falling with cmd := false } } } := by
  rcases s with ⟨_, _, _, _, _, _, _, _, _, _, _, _, _, ⟨_, _, _, _, _, ⟨_, _, _, b, _⟩, _, _, _⟩, _, _⟩
  cases b <;> rfl

/-- The alert unit's part. -/
theorem State.alrTakesDown_eq (s : State) :
    s.alrTakesDown = { s with
      alr := if s.wires.falling.alr then { s.alr with flags := s.alr.flags ||| linkFlag } else s.alr
      wires := { s.wires with falling := { s.wires.falling with alr := false } } } := by
  rcases s with ⟨_, _, _, _, _, _, _, _, _, _, _, _, _, ⟨_, _, _, _, _, ⟨_, _, _, _, b⟩, _, _, _⟩, _, _⟩
  cases b <;> rfl

/-- With no entry to DOWN waiting for the delivery controller it takes none. -/
@[simp] theorem State.dlvTakesDown_none (s : State) (h : s.wires.falling.dlv = false) : s.dlvTakesDown = s := by
  simp [State.dlvTakesDown, h]

/-- The delivery controller's part: the transmitter's, a send end that waits, and the return to CLOSED. -/
theorem State.dlvTakesDown_eq (s : State) (h : s.wires.falling.dlv = true) :
    s.dlvTakesDown =
      let u := s.ltxTakesDown.finishSendEnd
      { u with dlv := { u.dlv with deliveryOpen := false, ackTimer := none }, jctl := u.jctl.returnToClosed
               wires := { u.wires with falling := { u.wires.falling with dlv := false } } } := by
  unfold State.dlvTakesDown
  rw [if_pos h]
  rfl

/-- What the delivery controller's part leaves alone, and that nothing is out after it. -/
theorem State.dlvTakesDown_fields (s : State) :
    let t := s.dlvTakesDown
    t.path = s.path ∧ t.wtab = s.wtab ∧ t.tbs = s.tbs ∧ t.mrk = s.mrk ∧ t.frzu = s.frzu ∧ t.lrx = s.lrx ∧
    t.lctl = s.lctl ∧ t.cmd = s.cmd ∧ t.alr = s.alr ∧ t.pins = s.pins ∧ t.pending = s.pending ∧ t.choices = s.choices ∧
    t.wires.falling.dlv = false ∧
    (s.wires.falling.dlv = true → t.dlv.deliveryOpen = false ∧ t.dlv.ackTimer = none ∧ t.jctl.framesOut = 0) := by
  cases h : s.wires.falling.dlv
  · simp [h]
  · rw [State.dlvTakesDown_eq s h]
    simp [State.finishSendEnd_fields, State.ltxTakesDown_eq, Journal.returnToClosed_framesOut]

/-- An invariant that each block's part keeps is kept by the parts of any of the blocks. -/
theorem State.takeDownBy_keeps (P : State → Prop) (of : Config.LinkBlock → Bool) (hx : ∀ s, P s → P s.ltxTakesDown)
    (hd : ∀ s, P s → P s.dlvTakesDown) (hr : ∀ s, P s → P s.lrxTakesDown) (hc : ∀ s, P s → P s.cmdTakesDown)
    (ha : ∀ s, P s → P s.alrTakesDown) (s : State) (h : P s) : P (s.takeDownBy of) := by
  have keep : ∀ (b : Bool) (f : State → State), (∀ u, P u → P (f u)) → ∀ u, P u → P (if b then f u else u) := by
    intro b f hf u hu
    cases b
    · exact hu
    · exact hf u hu
  exact keep _ _ ha _ (keep _ _ hc _ (keep _ _ hr _ (keep _ _ hd _ (keep _ _ hx _ h))))

/-- With no entry to DOWN waiting none is taken. -/
theorem State.takeDown_none (s : State) (h : s.wires.falling = FallMarks.none) : s.takeDown = s := by
  have hx : s.ltxTakesDown = s := by simp [State.ltxTakesDown, h, FallMarks.none]
  have hd : s.dlvTakesDown = s := by simp [State.dlvTakesDown, h, FallMarks.none]
  have hr : s.lrxTakesDown = s := by simp [State.lrxTakesDown, h, FallMarks.none]
  have hc : s.cmdTakesDown = s := by simp [State.cmdTakesDown, h, FallMarks.none]
  have ha : s.alrTakesDown = s := by simp [State.alrTakesDown, h, FallMarks.none]
  simp [State.takeDown, State.takeDownBy, hx, hd, hr, hc, ha]

/-- Once every block has taken the entry to DOWN, none waits. -/
theorem State.takeDown_taken (s : State) : s.takeDown.wires.falling = FallMarks.none := by
  cases h : s.wires.falling.dlv
  · simp [State.takeDown, State.takeDownBy, State.ltxTakesDown_eq, State.lrxTakesDown_eq, State.cmdTakesDown_eq,
      State.alrTakesDown_eq, State.dlvTakesDown, h, FallMarks.none]
  · simp [State.takeDown, State.takeDownBy, State.lrxTakesDown_eq, State.cmdTakesDown_eq, State.alrTakesDown_eq,
      State.dlvTakesDown, State.ltxTakesDown_eq, State.finishSendEnd_fields, h, FallMarks.none]

/-! ### The entry to UP at the delivery controller (R145) -/

/-- With no entry to UP waiting none is taken. -/
@[simp] theorem State.takeUp_none (s : State) (h : s.wires.upHello = none) : s.takeUp = s := by
  simp [State.takeUp, h]

/-- With no change of the link state waiting the delivery controller takes none. -/
@[simp] theorem State.dlvTakesLink_none (s : State) (h : s.wires.upHello = none) (h' : s.wires.falling.dlv = false) :
    s.dlvTakesLink = s := by
  simp [State.dlvTakesLink, h, h']

end Sys2Proof.Machine
end

