-- ==== Sys2Proof/Laws/Clock.lean ====
section
/-! SUPPORT. What the clock's operations can do, once: byte times and CLK periods. -/

namespace Sys2Proof.Machine

/-! ### Byte times -/

/-- The end of a body puts its closing delimiter, and for a JOURNAL body leaves a send end to be taken. -/
theorem State.endBody_eq (s : State) :
    s.endBody = { s with
      ltx := s.ltx.closeBody, wires := { s.wires with sendEnd := s.ltx.inJournal || s.wires.sendEnd } } := by
  unfold State.endBody
  cases h : s.ltx.inJournal <;> rfl

/-- All that a byte time can do: a byte of an abort; the choice with a first byte or fill; or a byte of the body. -/
theorem State.byteTime_cases (s : State) :
    (∃ b rest, s.ltx.abortBytes = b :: rest ∧ s.byteTime = s.withLtx ({ s.ltx with abortBytes := rest }.put b)) ∨
    (s.ltx.abortBytes = [] ∧ s.ltx.body = none ∧ s.byteTime = s.chooseBody.sendByte) ∨
    (s.ltx.abortBytes = [] ∧ s.ltx.body ≠ none ∧ s.byteTime = s.sendByte) := by
  unfold State.byteTime
  split
  · next b rest h => exact .inl ⟨b, rest, h, rfl⟩
  · next h => cases hb : s.ltx.body <;> simp [h]

/-! ### CLK periods -/

/-- One CLK period more. -/
@[simp] theorem State.clkPeriods_succ (n : Nat) (s : State) :
    s.clkPeriods (n + 1) = s.clkPeriod.clkPeriods n := rfl

/-- No CLK period. -/
@[simp] theorem State.clkPeriods_zero (s : State) : s.clkPeriods 0 = s := rfl

/-- An invariant that one CLK period keeps is kept by any number of them. -/
theorem State.clkPeriods_keeps (P : State → Prop) (hp : ∀ s, P s → P s.clkPeriod) (n : Nat) (s : State) (h : P s) :
    P (s.clkPeriods n) := by
  induction n generalizing s with
  | zero => exact h
  | succ n ih => exact ih _ (hp s h)

/-- A tick that is not due is one CLK period nearer after each (R84). -/
theorem Timebase.periodsLeft_clkPeriod (t : Timebase) (h : t.tickDue = false) :
    t.periodsLeft = t.clkPeriod.periodsLeft + 1 := by
  by_cases hp : t.prescaler + 1 < 2 ^ t.shiftInUse
  · simp only [Timebase.clkPeriod, Timebase.periodsLeft, hp, h, if_true, Bool.false_eq_true, if_false]
    omega
  · simp only [Timebase.clkPeriod, Timebase.periodsLeft, hp, h, if_true, Bool.false_eq_true, if_false]
    omega

end Sys2Proof.Machine
end

