-- ==== Sys2Proof/Laws/Path.lean ====
section
/-! SUPPORT. What the shared operations of the path controller can do, once. -/

namespace Sys2Proof.Machine

/-- A list whose head is not a LOCAL item in phase WAITING is left as it is. -/
theorem answerLocal_eq_self (l : List Item)
    (h : l.head?.all fun it => match it.cls with | .local _ => decide (it.phase ≠ .waiting) | _ => true) :
    answerLocal l = l := by
  rcases l with _ | ⟨⟨cls, kind, source, address, beats, phase⟩, rest⟩
  · rfl
  · cases cls <;> cases phase <;> simp_all [answerLocal]

/-- With the ports as they always stand, evaluating the head again changes nothing. -/
theorem State.evaluateHead_eq_self (s : State) (h : s.portsSound) : s.evaluateHead = s := by
  obtain ⟨hheld, -, hlocal⟩ := h
  unfold State.evaluateHead
  have hself : answerLocal s.path.tracking = s.path.tracking := answerLocal_eq_self _ hlocal
  rcases hs : s.path.held with _ | ⟨r, more⟩
  · simp only [State.takeResponses, hself, ← hs]
    rfl
  · have hh := hheld (by simp [hs])
    rcases ht : s.path.tracking with _ | ⟨it, rest⟩
    · simp [ht] at hh
    · rcases it with ⟨cls, kind, source, address, beats, phase⟩
      cases phase with
      | waiting => simp [ht] at hh
      | answering resp =>
        simp only [State.takeResponses, ht, headAction]
        rw [← ht, hself, ← hs]
        rfl

/-- All that a claim for a captured request can do (R33): forwarded captured, forwarded not captured, or HOLD. -/
theorem State.claimThenForward_cases (r : Request) (a : Attributes) (body : RecordBody) (s : State) :
    let answered := s.claim (claimOf a body)
    (answered.2 = .appended ∧ s.claimThenForward r a body = answered.1.forward r (.forwarded a.entry true)) ∨
    (answered.2 = .noSpace ∧ a.lossPolicy = .drop ∧
      s.claimThenForward r a body = answered.1.forward r (.forwarded a.entry false)) ∨
    (answered.2 = .noSpace ∧ a.lossPolicy = .hold ∧
      s.claimThenForward r a body =
        answered.1.withPath { s.path with state := .hold r a body, stallTimer := some s.path.stallLimit }) := by
  simp only [State.claimThenForward]
  cases ha : (s.claim (claimOf a body)).2 <;> cases hl : a.lossPolicy <;> simp

/-- With no claim made for a request in hand none is answered. -/
@[simp] theorem State.answerClaim_none (s : State) (h : ∀ r a body, s.path.state ≠ .claiming r a body) :
    s.answerClaim = s := by
  unfold State.answerClaim
  split
  · next r a body h' => exact absurd h' (h r a body)
  all_goals rfl

/-- With no claim of the path controller for its requests made none is taken. -/
theorem State.takePathClaims_none (s : State) (h : ∀ r a body, s.path.state ≠ .claiming r a body)
    (h' : ∀ w ∈ s.wires.claims, w.claimant ≠ .path) : s.takePathClaims = s := by
  unfold State.takePathClaims
  rw [State.takeClaimsOf_none _ s (by simpa using h'), State.answerClaim_none s h]

/-- Once the claim for a request in hand is answered, none is unanswered. -/
theorem State.answerClaim_settled (s : State) (r : Request) (a : Attributes) (body : RecordBody) :
    s.answerClaim.path.state ≠ .claiming r a body := by
  unfold State.answerClaim
  split
  · next r' a' body' h =>
    rcases State.claimThenForward_cases r' a' body' s with ⟨-, h'⟩ | ⟨-, -, h'⟩ | ⟨-, -, h'⟩ <;> rw [h'] <;>
      simp [State.forward]
  all_goals simp_all

/-- Once the path controller is ready to answer, no claim for a request in hand is unanswered. -/
theorem State.settlePath_settled (s : State) (r : Request) (a : Attributes) (body : RecordBody) :
    s.settlePath.path.state ≠ .claiming r a body := by
  unfold State.settlePath
  split
  · exact State.answerClaim_settled _ r a body
  all_goals simp_all

/-- With no claim for a request in hand unanswered the path controller is ready to answer. -/
@[simp] theorem State.settlePath_none (s : State) (h : ∀ r a body, s.path.state ≠ .claiming r a body) : s.settlePath = s := by
  unfold State.settlePath
  split
  · next r a body h' => exact absurd h' (h r a body)
  all_goals rfl

/-- What the claim for a captured request leaves alone. -/
theorem State.claimThenForward_fields (r : Request) (a : Attributes) (body : RecordBody) (s : State) :
    let t := s.claimThenForward r a body
    t.wtab = s.wtab ∧ t.tbs = s.tbs ∧ t.mrk = s.mrk ∧ t.frzu = s.frzu ∧ t.lrx = s.lrx ∧ t.lctl = s.lctl ∧ t.ltx = s.ltx ∧
    t.dlv = s.dlv ∧ t.cmd = s.cmd ∧ t.alr.enable = s.alr.enable ∧ t.pins = s.pins ∧ t.wires = s.wires ∧
    t.pending = s.pending ∧ t.choices = s.choices := by
  rcases State.claimThenForward_cases r a body s with ⟨-, h⟩ | ⟨-, -, h⟩ | ⟨-, -, h⟩ <;> rw [h] <;>
    simp [State.forward, State.claim_enable]

/-- What the answering of the claim for a request in hand leaves alone: it touches the path controller, the journal, the alert
flags and the claims that wait. -/
theorem State.settlePath_fields (s : State) :
    let t := s.settlePath
    t.wtab = s.wtab ∧ t.tbs = s.tbs ∧ t.mrk = s.mrk ∧ t.frzu = s.frzu ∧ t.lrx = s.lrx ∧ t.lctl = s.lctl ∧ t.ltx = s.ltx ∧
    t.dlv = s.dlv ∧ t.cmd = s.cmd ∧ t.alr.enable = s.alr.enable ∧ t.pins = s.pins ∧
    { t.wires with claims := s.wires.claims } = s.wires ∧ t.pending = s.pending ∧ t.choices = s.choices := by
  unfold State.settlePath
  split
  · next r a body h =>
    have hf := State.takeClaimsOf_fields (fun w => decide (w = .path)) s
    have hc := State.claimThenForward_fields r a body (s.takeClaimsOf fun w => decide (w = .path))
    unfold State.takePathClaims State.answerClaim
    simp only [hf.1, h]
    simp_all
  all_goals simp

/-- Forwarding touches the path controller alone. -/
@[simp] theorem State.forward_eq (r : Request) (cls : ItemClass) (s : State) :
    s.forward r cls = s.withPath { s.path with
      state := .idle, tracking := s.path.tracking ++ [itemOf cls r], issued := s.path.issued ++ [r] } := rfl

/-- Classification touches the watch table alone. -/
theorem State.classify_eq (r : Request) (s : State) :
    s.classify r = match s.wtab.governing r with
      | none            => (s, none)
      | some (e, index) => (s.withWtab (s.wtab.put index { e with hitCount := satInc e.hitCount }),
                            some (e.attributes index s.frzu.effective r)) := rfl

end Sys2Proof.Machine
end

