-- ==== Sys2Proof/Laws/Status.lean ====
section
/-! SUPPORT. What the forming of replies and the execution of a GET-STATUS can do, once. -/

namespace Sys2Proof.Machine

/-! ### Replies -/

/-- Step 1 of Table 9-3 in words of the link. -/
theorem State.offLine_iff (s : State) : s.offLine = true ↔ s.lctl.link ≠ .up ∧ s.wires.falling.cmd = false := by
  unfold State.offLine
  cases s.wires.falling.cmd <;> simp

/-- A reply formed touches the command unit alone: it is stored, joins the queue unless the unit is off line, and READY. -/
theorem State.giveReply_eq (r : Reply) (s : State) :
    s.giveReply r = s.withCmd { s.cmd with
      lastTag := some r, execState := .ready, reading := none
      replies := if s.offLine then s.cmd.replies else s.cmd.replies ++ [r] } := by
  have h : (s.withCmd { s.cmd with lastTag := some r, execState := .ready, reading := none }).offLine = s.offLine := rfl
  unfold State.giveReply State.queueReply
  rw [h]
  cases s.offLine <;> rfl

/-! ### GET-STATUS -/

/-- The six owners with counters, after some of the owners have set theirs to 0. -/
theorem State.clearCounters_eq (of : Config.StatusOwner → Bool) (s : State) :
    s.clearCounters of = { s with
      jctl := if of .jctl then { s.jctl with recordsAppended := 0, recordsLost := 0, framesClosed := 0 } else s.jctl
      ltx := if of .ltx then { s.ltx with retransmitted := 0 } else s.ltx
      path := if of .path then { s.path with
        writesRefused := 0, stallExpiries := 0, writeFailures := 0, unmatchedResponses := 0 } else s.path
      cmd := if of .cmd then { s.cmd with commandsDiscarded := 0 } else s.cmd
      lrx := if of .lrx then { s.lrx with discards := ⟨0, 0, 0, 0, 0, 0⟩ } else s.lrx
      dlv := if of .dlv then { s.dlv with range := 0 } else s.dlv } := rfl

/-- A search by owner among the answers of some owners finds the answer of an owner among them. -/
theorem find_answer (l : List Config.StatusOwner) (p : Config.StatusOwner → Bool) (f : Config.StatusOwner → OwnerAnswer)
    (o : Config.StatusOwner) :
    ((((l.filter p).map fun x => (x, f x)).find? (fun a => decide (a.1 = o))).map Prod.snd) =
      if o ∈ l ∧ p o = true then some (f o) else none := by
  induction l with
  | nil => simp
  | cons x l ih =>
    by_cases hx : p x = true
    · rw [List.filter_cons_of_pos hx, List.map_cons, List.find?_cons]
      by_cases ho : x = o
      · subst ho
        simp [hx]
      · rw [decide_eq_false ho, ih]
        simp [Ne.symm ho]
    · rw [List.filter_cons_of_neg hx, ih]
      by_cases ho : o = x
      · subst ho
        simp [hx]
      · simp [ho]

/-- The reading after some of the owners have answered: an owner that had answered keeps its answer, and one of these that had
not has answered from this state. -/
theorem StatusReading.answerOf_append (r : StatusReading) (of : Config.StatusOwner → Bool) (s : State)
    (o : Config.StatusOwner) :
    ({ r with answers := r.answers ++
        (statusOwners.filter fun x => of x && (r.answerOf x).isNone).map fun x => (x, s.answer x) } :
      StatusReading).answerOf o =
      ((r.answerOf o).or (if of o then some (s.answer o) else none)) := by
  have hm : o ∈ statusOwners := by cases o <;> simp [statusOwners]
  have hf := find_answer statusOwners (fun x => of x && (r.answerOf x).isNone) (fun x => s.answer x) o
  have ha : ∀ l : List (Config.StatusOwner × OwnerAnswer), ({ r with answers := r.answers ++ l } : StatusReading).answerOf o =
      (r.answerOf o).or ((l.find? (fun a => decide (a.1 = o))).map Prod.snd) := by
    intro l
    unfold StatusReading.answerOf
    rw [List.find?_append]
    cases r.answers.find? (fun a => decide (a.1 = o)) <;> simp
  rw [ha, hf]
  cases h : r.answerOf o <;> simp [hm]

/-- With the answers of all owners the reading is complete. -/
theorem StatusReading.complete_iff (r : StatusReading) : r.complete = true ↔ ∀ o, r.answerOf o ≠ none := by
  have hm : ∀ o : Config.StatusOwner, o ∈ statusOwners := by intro o; cases o <;> simp [statusOwners]
  simp [StatusReading.complete, hm, Option.isSome_iff_ne_none]

/-- Some of the owners have answered: of the command unit only the reading and its counter, and of every other block only its
counters, are touched. -/
theorem State.letAnswer_fields (of : Config.StatusOwner → Bool) (r : StatusReading) (s : State) :
    let t := s.letAnswer of r
    t.wtab = s.wtab ∧ t.tbs = s.tbs ∧ t.mrk = s.mrk ∧ t.frzu = s.frzu ∧ t.lctl = s.lctl ∧ t.alr = s.alr ∧ t.pins = s.pins ∧
    t.wires = s.wires ∧ t.pending = s.pending ∧ t.choices = s.choices ∧
    { t.path with writesRefused := s.path.writesRefused, stallExpiries := s.path.stallExpiries
                  writeFailures := s.path.writeFailures, unmatchedResponses := s.path.unmatchedResponses } = s.path ∧
    { t.jctl with recordsAppended := s.jctl.recordsAppended, recordsLost := s.jctl.recordsLost
                  framesClosed := s.jctl.framesClosed } = s.jctl ∧
    { t.ltx with retransmitted := s.ltx.retransmitted } = s.ltx ∧ { t.lrx with discards := s.lrx.discards } = s.lrx ∧
    { t.dlv with range := s.dlv.range } = s.dlv ∧
    { t.cmd with commandsDiscarded := s.cmd.commandsDiscarded, reading := s.cmd.reading } = s.cmd ∧
    t.cmd.reading = some { r with answers := r.answers ++
      (statusOwners.filter fun o => of o && (r.answerOf o).isNone).map fun o => (o, s.answer o) } := by
  unfold State.letAnswer
  cases r.clear
  · exact ⟨rfl, rfl, rfl, rfl, rfl, rfl, rfl, rfl, rfl, rfl, rfl, rfl, rfl, rfl, rfl, rfl, rfl⟩
  · simp only [if_true, State.clearCounters_eq]
    refine ⟨rfl, rfl, rfl, rfl, rfl, rfl, rfl, rfl, rfl, rfl, ?_, ?_, ?_, ?_, ?_, ?_, rfl⟩ <;> simp only [State.withCmd] <;> split <;> rfl

/-- All that the forming of the reply of a GET-STATUS can do: with an owner still to answer, nothing. -/
theorem State.closeReading_cases (s : State) (r : StatusReading) (h : s.cmd.reading = some r) :
    (r.complete = false ∧ s.closeReading = s) ∨
    (r.complete = true ∧ s.closeReading = s.giveReply
      { tag := r.tag, code := 0x06, result := .ok, data := statusData fun o => (r.answerOf o).getD (s.answer o) }) := by
  unfold State.closeReading
  simp only [h]
  cases hc : r.complete
  · exact .inl ⟨rfl, rfl⟩
  · exact .inr ⟨rfl, rfl⟩

/-- The forming of the reply touches the command unit alone. -/
theorem State.closeReading_fields (s : State) :
    s.closeReading = s.withCmd s.closeReading.cmd ∧ s.closeReading.cmd.commandsDiscarded = s.cmd.commandsDiscarded := by
  unfold State.closeReading
  split
  · exact ⟨rfl, rfl⟩
  · split
    · rw [State.giveReply_eq]
      exact ⟨rfl, rfl⟩
    · exact ⟨rfl, rfl⟩

/-- With no GET-STATUS being executed nothing happens at a moment. -/
@[simp] theorem State.ownersAnswer_none (s : State) (h : s.cmd.reading = none) : s.ownersAnswer = s := by
  simp [State.ownersAnswer, h]

/-- With no GET-STATUS being executed the next state of a command is the one given. -/
theorem nextOf_none (s : State) (h : s.cmd.reading = none) : nextOf s = .next s := by
  rw [nextOf, State.ownersAnswer_none s h]

/-- What a moment at which owners may answer leaves alone: every block but the command unit keeps all but its counters. -/
theorem State.ownersAnswer_fields (s : State) :
    let t := s.ownersAnswer
    t.wtab = s.wtab ∧ t.tbs = s.tbs ∧ t.mrk = s.mrk ∧ t.frzu = s.frzu ∧ t.lctl = s.lctl ∧ t.alr = s.alr ∧ t.pins = s.pins ∧
    t.wires = s.wires ∧ t.pending = s.pending ∧ s.choices ≤ t.choices ∧
    { t.path with writesRefused := s.path.writesRefused, stallExpiries := s.path.stallExpiries
                  writeFailures := s.path.writeFailures, unmatchedResponses := s.path.unmatchedResponses } = s.path ∧
    { t.jctl with recordsAppended := s.jctl.recordsAppended, recordsLost := s.jctl.recordsLost
                  framesClosed := s.jctl.framesClosed } = s.jctl ∧
    { t.ltx with retransmitted := s.ltx.retransmitted } = s.ltx ∧ { t.lrx with discards := s.lrx.discards } = s.lrx ∧
    { t.dlv with range := s.dlv.range } = s.dlv ∧ (t.cmd.reading ≠ none → s.cmd.reading ≠ none) := by
  unfold State.ownersAnswer
  split
  · simp
  · next r hr =>
    obtain ⟨h1, h2, h3, h4, h5, h6, h7, h8, h9, h10, h11, h12, h13, h14, h15, -, -⟩ :=
      State.letAnswer_fields (fun o => s.mayAnswer o && Config.answersNow s.choices o) r s
    rw [(State.closeReading_fields _).1]
    exact ⟨h1, h2, h3, h4, h5, h6, h7, h8, h9, Nat.le_succ _, h11, h12, h13, h14, h15, fun _ => by simp [hr]⟩

/-- What the beginning of a GET-STATUS leaves alone: all but the reading. -/
theorem State.beginStatus_eq (tag : Byte) (clear : Bool) (s : State) :
    s.beginStatus tag clear = { s with cmd := { s.cmd with reading := some ⟨tag, clear, [], 0⟩ } } := rfl

/-- With no GET-STATUS being executed its end changes nothing. -/
@[simp] theorem State.finishStatus_none (s : State) (h : s.cmd.reading = none) : s.finishStatus = s := by
  simp [State.finishStatus, h]

/-- With no GET-STATUS being executed a CLK period changes nothing of one. -/
@[simp] theorem State.statusPeriod_none (s : State) (h : s.cmd.reading = none) : s.statusPeriod = s := by
  simp [State.statusPeriod, h]

/-- Completion gives every owner an answer. -/
theorem StatusReading.complete_all (r : StatusReading) (s : State) :
    ({ r with answers := r.answers ++
        (statusOwners.filter fun x => true && (r.answerOf x).isNone).map fun x => (x, s.answer x) } :
      StatusReading).complete = true := by
  rw [StatusReading.complete_iff]
  intro o
  rw [StatusReading.answerOf_append r (fun _ => true)]
  cases r.answerOf o <;> simp

/-- A GET-STATUS completed: the reply is formed of the answers there are and, for the others, of the owners' states now; the
path controller's claim for a request in hand is answered before it answers. -/
theorem State.finishStatus_some (s : State) (r : StatusReading) (h : s.cmd.reading = some r) :
    let s1 := if (r.answerOf .path).isNone then s.settlePath else s
    s.finishStatus = (s1.letAnswer (fun _ => true) r).giveReply
      { tag := r.tag, code := 0x06, result := .ok, data := statusData fun o => (r.answerOf o).getD (s1.answer o) } := by
  intro s1
  have hs : s.finishStatus = (s1.letAnswer (fun _ => true) r).closeReading := by
    unfold State.finishStatus
    simp only [h]
    rfl
  have hr := (State.letAnswer_fields (fun _ => true) r s1).2.2.2.2.2.2.2.2.2.2.2.2.2.2.2.2
  rcases State.closeReading_cases _ _ hr with ⟨hc, -⟩ | ⟨-, hc⟩
  · rw [StatusReading.complete_all r s1] at hc
    contradiction
  · rw [hs, hc]
    congr 2
    refine congrArg statusData (funext fun o => ?_)
    rw [StatusReading.answerOf_append r (fun _ => true)]
    cases r.answerOf o <;> simp

/-- What the completion of a GET-STATUS leaves alone. -/
theorem State.finishStatus_fields (s : State) :
    let t := s.finishStatus
    t.wtab = s.wtab ∧ t.tbs = s.tbs ∧ t.mrk = s.mrk ∧ t.frzu = s.frzu ∧ t.lctl = s.lctl ∧ t.alr.enable = s.alr.enable ∧
    t.pins = s.pins ∧ { t.wires with claims := s.wires.claims } = s.wires ∧ t.pending = s.pending ∧ t.choices = s.choices ∧
    t.cmd.reading = none := by
  cases h : s.cmd.reading with
  | none   => simp [h]
  | some r =>
    have hp : ∀ b : Bool, let u := if b then s.settlePath else s
        u.wtab = s.wtab ∧ u.tbs = s.tbs ∧ u.mrk = s.mrk ∧ u.frzu = s.frzu ∧ u.lctl = s.lctl ∧ u.alr.enable = s.alr.enable ∧
        u.pins = s.pins ∧ { u.wires with claims := s.wires.claims } = s.wires ∧ u.pending = s.pending ∧
        u.choices = s.choices := by
      intro b
      cases b
      · simp
      · have hf := State.settlePath_fields s
        simp_all
    rw [State.finishStatus_some s r h, State.giveReply_eq]
    have hl := State.letAnswer_fields (fun _ => true) r (if (r.answerOf .path).isNone then s.settlePath else s)
    have hu := hp (r.answerOf .path).isNone
    simp_all

end Sys2Proof.Machine
end

