-- ==== Sys2Proof/Laws/Commands.lean ====
section
/-! SUPPORT. What the taking of a command can do, once. -/

namespace Sys2Proof.Machine

/-- All that steps 1 to 3 can do (Table 9-3): the four ways on. -/
theorem State.examine_cases (tag code : Byte) (run : State → Executed) (s : State) :
    (s.offLine = true ∧ s.examine tag code run = s.countDiscard .state) ∨
    (s.offLine = false ∧ 4 ≤ s.cmd.replies.length ∧ s.examine tag code run = s.discardFull) ∨
    (s.offLine = false ∧ s.cmd.replies.length < 4 ∧
      ∃ r, s.cmd.lastTag = some r ∧ r.tag = tag ∧ s.examine tag code run = s.queueReply r) ∨
    (((s.lctl.link = .up ∨ s.wires.falling.cmd = true) ∧ s.cmd.replies.length < 4 ∧ ∀ r ∈ s.cmd.lastTag, r.tag ≠ tag) ∧
      s.examine tag code run = State.formReply tag code (run s)) := by
  unfold State.examine
  by_cases hl : s.offLine = true
  · exact .inl ⟨hl, by simp [hl, State.discardAsState]⟩
  · have hf : s.offLine = false := by simpa using hl
    have hup : s.lctl.link = .up ∨ s.wires.falling.cmd = true := by
      rw [State.offLine_iff] at hl
      by_cases h : s.lctl.link = .up
      · exact .inl h
      · exact .inr (by simpa [h] using hl)
    by_cases hq : 4 ≤ s.cmd.replies.length
    · exact .inr (.inl ⟨hf, hq, by simp [hf, Config.replyPlaces, hq]⟩)
    · have hq' : s.cmd.replies.length < 4 := by omega
      cases hr : s.cmd.lastTag with
      | none =>
        right; right; right
        exact ⟨⟨hup, hq', by simp⟩, by simp [hf, Config.replyPlaces, hq, CommandUnit.storedFor, hr]⟩
      | some r =>
        by_cases ht : r.tag = tag
        · right; right; left
          exact ⟨hf, hq', r, rfl, ht, by simp [hf, Config.replyPlaces, hq, CommandUnit.storedFor, hr, ht]⟩
        · right; right; right
          exact ⟨⟨hup, hq', by simpa [hr] using ht⟩,
            by simp [hf, Config.replyPlaces, hq, CommandUnit.storedFor, hr, ht]⟩

/-- A command that passes steps 1 to 3 is run and answered. -/
theorem State.intake_accepted (tag code : Byte) (run : State → Executed) (s : State) (h : s.acceptsTag tag) :
    s.intake tag code run = State.formReply tag code (run s) := by
  obtain ⟨hl, hq, ht, hr⟩ := h
  unfold State.intake
  rw [State.finishStatus_none s hr]
  rcases State.examine_cases tag code run s with ⟨h', -⟩ | ⟨-, h', -⟩ | ⟨-, -, r, hs, hs', -⟩ | ⟨-, h'⟩
  · rw [State.offLine_iff] at h'
    rcases hl with hl | hl <;> simp_all
  · omega
  · exact absurd hs' (ht r hs)
  · exact h'

/-- Taking a body off the wires does not change what a command is judged by. -/
@[simp] theorem State.acceptsTag_handedOff (tag : Byte) (s : State) :
    s.handedOff.acceptsTag tag ↔ s.acceptsTag tag := by
  simp [State.acceptsTag]

/-- A command that is the next body and passes steps 1 to 3 is run, on the state in which it no longer waits, and
answered. -/
theorem State.takeCommand_accepted (tag code : Byte) (args : List Byte) (run : State → Executed) (s : State)
    (hn : s.isNext (.command tag code args)) (h : s.acceptsTag tag) :
    s.takeCommand tag code args run = State.formReply tag code (run s.handedOff) := by
  unfold State.takeCommand
  rw [State.takeHanded_next _ _ _ hn]
  exact State.intake_accepted tag code run _ ((State.acceptsTag_handedOff tag s).2 h)

/-- Before the command unit has taken an entry to DOWN, a reply formed is stored and joins the queue at its tail. -/
theorem State.giveReply_onLine (r : Reply) (s : State) (h : s.offLine = false) :
    s.giveReply r = s.replied r.tag r.code r.result r.data := by
  rw [State.giveReply_eq, h]
  rfl

/-- A command executed whole has its reply formed. -/
@[simp] theorem State.formReply_done (tag code : Byte) (s : State) (result : Result) (data : List Byte) :
    State.formReply tag code (done s result data) = s.giveReply { tag, code, result, data } := rfl

/-- The right number of argument bytes: the command is run, EXECUTING. -/
theorem withLength_right (n : Nat) (args : List Byte) (run : State → Executed) (s : State) (h : args.length = n) :
    withLength n args run s = run (s.withCmd { s.cmd with execState := .executing }) := by
  simp [withLength, h]

/-- Any other number: BAD-LENGTH, and nothing is run. -/
theorem withLength_wrong (n : Nat) (args : List Byte) (run : State → Executed) (s : State) (h : args.length ≠ n) :
    withLength n args run s = done s .badLength [] := by
  simp [withLength, h]

end Sys2Proof.Machine
end

