-- ==== Sys2Proof/Laws/Receiver.lean ====
section
/-! SUPPORT. What the finishing of a handing on and the byte that meets it can do, once. -/

namespace Sys2Proof.Machine

/-- With no body, no report and no entry to UP waiting, no handing on is left to finish. -/
@[simp] theorem State.finishHanding_none (s : State) (hb : s.wires.handedOn = none) (hr : s.wires.frameReport = false)
    (hu : s.wires.upHello = none) : s.finishHanding = s := by
  simp [State.finishHanding, hb, hr, hu]

/-- With a body waiting and no report: the block takes it, then comes a moment of a GET-STATUS, then the entry to UP. -/
theorem State.finishHanding_some (s : State) (b : Body) (hb : s.wires.handedOn = some b) (hr : s.wires.frameReport = false) :
    s.finishHanding = (s.handedOff.deliver b).ownersAnswer.takeUp := by
  simp [State.finishHanding, hb, hr]

/-- In DOWN a HELLO that waits is ignored (R123, R124). -/
theorem State.deliver_hello_down (s : State) (e : Seq) (hl : s.lctl.link = .down) (hr : s.wires.frameReport = false) :
    s.deliver (.hello e) = s := by
  simp [State.deliver, State.takeHello, hr, hl]

/-- The move to UP waits exactly with a HELLO in TRAINING. -/
theorem State.movePending_iff (s : State) :
    s.movePending = true ↔ s.lctl.link = .training ∧ ∃ e, s.wires.handedOn = some (.hello e) := by
  unfold State.movePending
  cases h : s.wires.handedOn with
  | none => simp
  | some b => cases b <;> simp [Body.isHello]

/-- All that a byte can do that meets the end of a handing on: after the body before it, judged against the link state after it,
or, when that body moves the link to UP and the body is judged before the move, against TRAINING. -/
theorem State.takeByteHandedOn_cases (b : Byte) (s : State) :
    (s.movePending = false ∧ s.takeByteHandedOn b = s.finishHanding.takeByte s.finishHanding.lctl.link b) ∨
    (s.movePending = true ∧
      let s1 := (s.withChoices (s.choices + 1)).finishHanding
      (Config.judgesFirst s.choices = true ∧ s.takeByteHandedOn b = s1.takeByte .training b) ∨
      (Config.judgesFirst s.choices = false ∧ s.takeByteHandedOn b = s1.takeByte s1.lctl.link b)) := by
  unfold State.takeByteHandedOn
  cases h : s.movePending with
  | false => exact .inl ⟨rfl, rfl⟩
  | true =>
    have hl := ((State.movePending_iff s).1 h).1
    refine .inr ⟨rfl, ?_⟩
    cases hj : Config.judgesFirst s.choices
    · exact .inr ⟨rfl, rfl⟩
    · exact .inl ⟨rfl, by simp [hl]⟩

end Sys2Proof.Machine
end

