-- ==== Sys2Proof/Tests/Slice0.lean ====
section
/-! SUPPORT. Tests: the WellFormed smoke tests, worked figures of the manual, and for each statement of Obligations.lean
with hypotheses a witness that meets them, clause by clause. -/

namespace Sys2Proof.Tests

open Sys2Proof Sys2Proof.Machine

-- One proof after another: the many small kernel evaluations below need no threads of their own.
set_option Elab.async false

/-! ### Well-formedness: one ill-formed command for each check -/

/-- A word of data. -/
def word : DataWord := ⟨1, 2, 3, 4⟩

/-- A request with as many enables and words as its beats. -/
def req (kind : ReqKind) (address : Addr) (beats : Nat) (source : BitVec 4) : Request :=
  { kind, address, beatsLess1 := BitVec.ofNat 4 (beats - 1), source
    enables := if kind = .write then List.replicate beats 15 else []
    data := if kind = .write then List.replicate beats word else [] }

theorem test_wf_accepts : (Instr.requestTaken (req .write 0x20000000 16 3)).wellFormed = true := by decide
theorem test_wf_misaligned : (Instr.requestTaken (req .read 0x20000002 1 3)).wellFormed = false := by decide
theorem test_wf_few_enables :
    (Instr.requestTaken { req .write 0x20000000 2 3 with enables := [15] }).wellFormed = false := by decide
theorem test_wf_many_words :
    (Instr.requestTaken { req .write 0x20000000 1 3 with data := [word, word] }).wellFormed = false := by decide
theorem test_wf_read_with_enables :
    (Instr.requestTaken { req .read 0x20000000 1 3 with enables := [15] }).wellFormed = false := by decide
theorem test_wf_read_with_data :
    (Instr.requestTaken { req .read 0x20000000 1 3 with data := [word] }).wellFormed = false := by decide
theorem test_wf_long_response :
    (Instr.downstreamResponse ⟨.okay, List.replicate 17 word⟩).wellFormed = false := by decide
theorem test_wf_long_arguments : (Instr.setEntry 1 (List.replicate 60 0)).wellFormed = false := by decide
theorem test_wf_known_code : (Instr.unknownCommandCode 1 0x0C []).wellFormed = false := by decide

/-! ### Small states -/

/-- The state after a command. -/
def after (i : Instr) (s : State) : State :=
  match exec i s with
  | .next t => t
  | .fault _ | .refused _ => s

/-- The records of the newest held frame. -/
def newestRecords (j : Journal) : List Record :=
  match j.openFrame with
  | some f => f.records
  | none   => (j.frames.getLast?.map (·.records)).getD []

/-- A valid entry over a window. -/
def entry (base limit : Addr) (kinds : Kinds) (value mask : BitVec 4) (writeForm : WriteForm) : WatchEntry :=
  { WatchEntry.reset with
    valid := true, base, limit, kinds, sourceValue := value, sourceMask := mask, writeForm }

/-- The configuration of Table 1-4. -/
def table : WatchTable :=
  ((((State.reset.wtab.put 0 (entry 0x20000000 0x200000FF .both 0 0 .none)).put 1
    { entry 0x20000000 0x20000FFF .writes 0 0 .both with lossPolicy := .hold, freezable := true }).put 2
    { entry 0x20000000 0x2003FFFF .writes 8 12 .after with freezable := true, refusal := .silent }).put 3
    (entry 0x20000000 0x2003FFFF .writes 0 0 .address)).put 4
    { entry 0x20040000 0x2004003F .both 0 0 .after with readForm := .address, lossPolicy := .hold, closeAfter := true }

/-- A frame of WRITE records of form ADDRESS of 1 beat, 11 bytes each. -/
def frame (seq : Seq) (state : FrameState) (records : Nat) : Frame :=
  { seq, state, baseTime := 0, records := List.replicate records ⟨.write 0 0 0 0 [15] .address, 0⟩
    closeCause := .limit, sentBefore := decide (state = .sent), retryCount := 0 }

/-- An OPEN frame with the same records. -/
def openFrame (seq : Seq) (records : Nat) : OpenFrame :=
  { seq, baseTime := 0, age := 0, records := List.replicate records ⟨.write 0 0 0 0 [15] .address, 0⟩ }

/-- In UP: two SENT frames, a CLOSED one and the OPEN frame, table of Table 1-4. -/
def up : State :=
  { State.reset with
    wtab := table
    lctl := { State.reset.lctl with link := .up, silenceTimer := some 1000 }
    lrx := { State.reset.lrx with rx := .between }
    dlv := { State.reset.dlv with deliveryOpen := true, ackTimer := some 400 }
    jctl := { State.reset.jctl with
      frames := [frame 0xFE .sent 1, frame 0xFF .sent 1, frame 0x00 .closed 1]
      openFrame := some (openFrame 0x01 1), nextSeq := 0x02, idleTimer := some 200 } }

/-- The same in TRAINING, with nothing out. -/
def training : State :=
  { up with
    lctl := { up.lctl with link := .training, helloTimer := some 50 }
    ltx := { up.ltx with helloPending := true }
    dlv := State.reset.dlv
    jctl := { up.jctl with frames := [frame 0xFF .closed 1, frame 0x00 .closed 1] } }

/-- The same in DOWN. -/
def down : State :=
  { training with
    lctl := State.reset.lctl, ltx := State.reset.ltx, lrx := { State.reset.lrx with settleCount := 511 } }

/-- UP with another path controller. -/
def withPath (p : Path) : State := { up with path := p }

/-- A tracking item of a read. -/
def item (cls : ItemClass) (phase : Phase) : Item := ⟨cls, .read, 3, 0x20000100, 0, phase⟩

/-- The attributes that entry 1 of Table 1-4 gives a write. -/
def attributes1 : Attributes := ⟨1, .both, .hold, false, .error, false⟩

/-- PRE-READ for the request c of Table 1-5. -/
def preRead : State := withPath
  { Path.reset with state := .preRead (req .write 0x20000100 1 3) attributes1
                    tracking := [item .preRead .waiting], issued := [req .read 0x20000100 1 3] }

/-- HOLD with the stall timer's expiry due and a report waiting. -/
def hold : State :=
  { withPath { Path.reset with
      state := .hold (req .read 0x20040000 1 3) ⟨4, .address, .hold, false, .error, true⟩ (.read 4 3 0 0x20040000)
      stallTimer := some 0 } with wires := { Wires.reset with spaceFreed := 1 } }

/-- WAIT-SLOT behind eight items of which the head answers. -/
def waiting : State := withPath
  { Path.reset with
    state := .waitSlot ⟨req .read 0x50000000 1 3, none⟩
    tracking := item .unwatched (.answering ⟨.okay, [word]⟩) :: List.replicate 7 (item .unwatched .waiting)
    issued := List.replicate 7 (req .read 0x20000100 1 3) }

/-- UP while the CLOSED frame's JOURNAL body is in progress. -/
def sending : State :=
  { up with
    jctl := { up.jctl with frames := [frame 0xFE .sent 1, frame 0xFF .sent 1, frame 0x00 .sending 1] }
    ltx := up.ltx.start (.journal 0x00) [0x4A, 0x00] }

/-- A state with a send end or a send-end report that waits. -/
def endWaits (sendEnd sendReport : Bool) (s : State) : State := { s with wires := { s.wires with sendEnd, sendReport } }

/-- A state in which a GET-STATUS of tag 6 is being executed, with the answers so far. -/
def executing (clear : Bool) (answers : List (Config.StatusOwner × OwnerAnswer)) (s : State) : State :=
  { s with cmd := { s.cmd with execState := .executing, reading := some ⟨6, clear, answers, 0⟩ } }

/-- UP with so many replies queued, and the last of them stored. -/
def queued (n : Nat) : State :=
  { up with cmd := { up.cmd with replies := List.replicate n ⟨1, 0x08, .ok, []⟩, lastTag := some ⟨7, 0x08, .ok, []⟩ } }

/-- DOWN before the command unit has taken the entry to it, with so many replies queued. -/
def fallen (n : Nat) : State :=
  { (queued n) with lctl := down.lctl, lrx := down.lrx
                    wires := { up.wires with falling := { FallMarks.none with cmd := true } } }

/-- The read of request h of Table 1-5 with its claim made, and claims of other blocks that wait. -/
def claimed (claims : List WaitingClaim) : State :=
  { withPath { Path.reset with
      state := .claiming (req .read 0x20040000 1 3) ⟨4, .address, .hold, false, .error, true⟩ (.read 4 3 0 0x20040000) }
    with wires := { Wires.reset with claims } }

/-- The claims of a FAILED record of entry 1 and of a FREEZE record. -/
def otherClaims : List WaitingClaim :=
  [⟨.failed, ⟨.failed 1 3 0 0x20000100, .drop, .none⟩⟩, ⟨.freezeUnit, ⟨.freeze true .command, .drop, .none⟩⟩]

/-- DOWN before any block has taken the entry to it, from a state in UP. -/
def falling (s : State) : State :=
  { s with lctl := down.lctl, wires := { s.wires with falling := ⟨true, true, true, true, true⟩ } }

/-! ### Worked figures of the manual -/

-- Section 6.2.1.
theorem test_check_value_ack_05 : checkValue [0x61, 0x05] = 0x75B1 := by decide +kernel
-- Section 6.2.1.
theorem test_check_value_ack_C3 : checkValue [0x61, 0xC3] = 0xCC3B := by decide +kernel
-- Section 6.2.1: the line of the second ACK frame after its opening delimiter.
theorem test_line_ack_C3 :
    downlinkLine (.ack 0xC3) = [0x61, 0xCC, 0xD3, 0xCC, 0xDC, 0x3B, 0xC3] := by decide +kernel
-- Table 1-5, requests a, b, c, d, e, f, g, h, i and n.
theorem test_table_1_5 :
    ([req .write 0x20000040 2 3, req .write 0x200000F8 4 3, req .write 0x20000100 1 3, req .write 0x20002000 4 9,
      req .write 0x20002000 4 3, req .read 0x20002000 1 3, req .read 0x20000010 1 3, req .read 0x20040000 1 3,
      req .write 0x2003FFFC 2 10, req .write 0x50000000 1 3].map fun r => (table.governing r).map Prod.snd) =
    [some 0, some 0, some 1, some 2, some 3, none, some 0, some 4, some 2, none] := by decide +kernel
-- R8: a request that wraps qualifies for a window at the bottom of the address space.
theorem test_wrapped_request : windowOverlaps 0x00000000 0x00000003 (req .read 0xFFFFFFF8 4 0) = true := by decide
-- Table 3-10, 16 beats, and the smallest record.
theorem test_record_lengths :
    (recordLength (.write 0 0 15 0 [] .address), recordLength (.write 0 0 15 0 [] (.after [])),
     recordLength (.write 0 0 15 0 [] (.both [] [])), recordLength (.freeze true .pin)) = (26, 90, 154, 6) := by decide
-- Table 5-6, ticks 4 and 5, at filter time 2.
theorem test_filter_two_samples :
    filterSample 2 true ⟨false, 0⟩ = (⟨false, 1⟩, none) ∧
    filterSample 2 true ⟨false, 1⟩ = (⟨true, 0⟩, some true) := by decide
-- R91: a count of 5 when the time is changed from 8 to 4.
theorem test_filter_time_lowered : filterSample 4 true ⟨false, 5⟩ = (⟨true, 0⟩, some true) := by decide

/-! ### One step at a time -/

-- Table 1-5, request c (R30).
theorem test_request_both :
    (after (.requestTaken (req .write 0x20000100 1 3)) up).path.issued = [req .read 0x20000100 1 3] := by decide +kernel
-- Table 1-5, request j, and Table 1-6 (R14, R32).
theorem test_request_refused :
    let t := after (.requestTaken (req .write 0x20000200 1 3))
      { up with frzu := { up.frzu with commandFreeze := true } }
    t.path.issued = [] ∧ t.path.tracking.map (·.phase) = [.answering ⟨.error, []⟩] ∧
    t.wtab.entries[1].hitCount = 1 := by decide +kernel
-- Section 2.9: the before-image of the write c.
theorem test_before_image :
    (after (.downstreamResponse ⟨.okay, [word]⟩) preRead).path.state =
      .claiming (req .write 0x20000100 1 3) attributes1 (.write 1 3 0 0x20000100 [15] (.both [word] [word])) := by
  decide +kernel
-- R56: a FREEZE claim made after a request was classified is taken before the claim for the request.
theorem test_freeze_before_claim :
    let t := after (.appendClaim .freezeUnit) (claimed otherClaims)
    (newestRecords t.jctl).getLast?.map (·.body) = some (.freeze true .command) ∧
    t.path.state = (claimed []).path.state := by decide +kernel
-- R39: a FAILED claim waits while the claim for the request in hand is taken.
theorem test_claim_before_failed :
    let t := after (.appendClaim .path) (claimed otherClaims)
    (newestRecords t.jctl).getLast?.map (·.body) = some (.read 4 3 0 0x20040000) ∧ t.wires.claims = otherClaims ∧
    t.path.issued = [req .read 0x20040000 1 3] := by decide +kernel
-- Section 4.10, point 9, in small: an ACK past both SENT frames (R138).
theorem test_ack_wraps :
    let t := after (.ack 0x00) up
    t.jctl.frames.map (·.seq) = [0x00] ∧ t.dlv.ackTimer = none := by decide +kernel
-- Table 8-3: FEh and FFh SENT, valid numbers FEh to 00h.
theorem test_ack_out_of_range : (after (.ack 0x01) up).dlv.range = 1 := by decide +kernel
-- R139: what was SENT is CLOSED again.
theorem test_nak : (after (.nak 0xFF) up).jctl.frames.map (fun f => (f.seq, f.state)) =
    [(0xFF, .closed), (0x00, .closed)] := by decide +kernel
-- R76, R135: the oldest CLOSED frame is started.
theorem test_frame_boundary :
    (after .frameBoundary up).ltx.body.map (fun b => (b.kind, b.bytes.take 2)) =
      some (.journal 0x00, [0x4A, 0x00]) := by decide +kernel
-- R113: the uplink HELLO with part code 2410h and revision 01h.
theorem test_uplink_hello :
    (after .frameBoundary training).ltx.body =
      some ⟨.hello, [0x48, 0x00, 0x00, 0xFF, 0x02, 0x03, 0x24, 0x10, 0x01]⟩ := by decide +kernel
-- R119: the 512th delimiter, the settle figure after cold reset.
theorem test_settle : (after (.downlinkByte 0xC3) down).lctl.link = .training := by decide +kernel
-- R36: the expiry in HOLD.
theorem test_stall :
    let t := after .stallTimerExpiry hold
    t.jctl.pendingLoss = 1 ∧ t.alr.flags = 0x03 ∧ t.path.issued = [req .read 0x20040000 1 3] := by decide +kernel
-- R128: LINK is set when UP is left.
theorem test_silence : up.handDown.takeDown.alr.flags = 0x04 := by decide +kernel
-- R109, R118: a good ACK that ends in DOWN, before the receiver has taken the entry, is counted under STATE.
theorem test_body_judged_in_down :
    let t := after (.downlinkByte 0xC3) (falling { up with lrx := { up.lrx with rx := .collecting [0x61, 0x05, 0x75, 0xB1] } })
    t.lrx.discards.state = 1 ∧ t.lrx.rx = .between ∧ t.lctl.silenceTimer = none := by decide +kernel
-- R15: the range check comes before the value check.
theorem test_set_entry_range_first :
    (after (.setEntry 7 [0, 1, 0x20, 0, 0, 1, 0x20, 0, 0, 0xFF, 9, 0, 0, 0, 0, 0, 0, 0]) up).cmd.replies =
      [⟨7, 0x02, .badRange, []⟩] := by decide +kernel
-- Table 9-5: FRAME-LIMIT below its least value.
theorem test_set_param_range :
    (after (.setParam 7 [0x01, 0, 0, 0, 255]) up).cmd.replies = [⟨7, 0x05, .badValue, []⟩] := by decide +kernel
-- Section 10.6, point 6: mask 10h on the flags 19h.
theorem test_clear_alerts :
    (after (.clearAlerts 7 [0x10]) { up with alr := { up.alr with flags := 0x19 } }).alr.flags = 0x09 := by
  decide +kernel
-- R164: the MARK command's record and its recorded flag.
theorem test_mark :
    let t := after (.mark 7 [0x01, 0x00, 0x01]) up
    (newestRecords t.jctl).getLast? = some ⟨.mark .recorder 0x0100, 0⟩ ∧
    t.cmd.replies = [⟨7, 0x09, .ok, [0x01]⟩] ∧ t.jctl.openFrame = none := by decide +kernel
-- R99: PIN-HELD.
theorem test_thaw :
    (after (.thaw 7 []) { up with frzu := { up.frzu with filter := ⟨true, 0⟩, commandFreeze := true } }).cmd.replies =
      [⟨7, 0x0B, .pinHeld, []⟩] := by decide +kernel
-- R84, R88: a tick is due with the last of the 2^k periods, here of k = 2, and not before.
theorem test_tick_period :
    let s := { up with tbs := { up.tbs with shiftInUse := 2 } }
    (s.clkPeriods 3).tbs.tickDue = false ∧ (s.clkPeriods 4).tbs.tickDue = true ∧
    (s.clkPeriods 4).tbs.time = 0 ∧ (s.clkPeriods 5).tbs.time = 1 := by decide +kernel
-- R95: the claim of an edge is taken before the next tick, and carries the offset of its own.
theorem test_edge_before_tick :
    let s := { up with tbs := { up.tbs with tickDue := true }
                       wires := { up.wires with claims := [⟨.marker .m0, ⟨.mark (.pin .m0) 1, .drop, .none⟩⟩] } }
    ((after (.tick lowPins) s).jctl.openFrame.map fun f => (f.age, f.records.getLast?)) =
      some (1, some ⟨.mark (.pin .m0) 1, 0⟩) := by decide +kernel
-- R120: a settle count of 256 when SETTLE-CODE 2 is taken in DOWN, before the unit has taken the entry.
theorem test_settle_at_once :
    let s := { down with lrx := { down.lrx with settleCount := 256 }, wires := (fallen 0).wires }
    (after (.setParam 7 [0x08, 0, 0, 0, 2]) s).lctl.link = .training := by decide +kernel
-- R110: an ACK is not there yet while the NAK before it waits.
theorem test_bodies_in_order :
    (after (.ack 0xFF) { up with wires := { up.wires with handedOn := some (.nak 0xFE) } }).jctl = up.jctl := by
  decide +kernel
-- R105: the bytes of an abort after an escape awaiting its second byte, and otherwise.
theorem test_abort_bytes :
    let x := up.ltx.start .reply [0xC3]
    x.abortBody.abortBytes = [0xCC, 0xC3] ∧ x.sendBodyByte.abortBody.abortBytes = [0xC3] := by decide +kernel
-- R127: the closing delimiter was sent before the entry to DOWN; the frame reaches SENT and is returned.
theorem test_delimiter_before_return :
    (endWaits true false (falling { sending with ltx := up.ltx })).takeDown.jctl.frames.map
      (fun f => (f.state, f.sentBefore)) = [(.closed, true), (.closed, true), (.closed, true)] := by decide +kernel
-- R141: a NAK in DOWN finds no SENT frame.
theorem test_nak_in_down :
    let t := after (.nak 0xFF) (falling up)
    t.dlv.range = 1 ∧ t.jctl.framesOut = 0 ∧ t.jctl.frames.length = 3 := by decide +kernel
-- R145: the delivery controller takes the HELLO of the entry to UP and then opens delivery.
theorem test_entry_to_up :
    let t := State.takeUp { training with lctl := up.lctl, wires := { up.wires with upHello := some 0x00 } }
    t.dlv.range = 1 ∧ t.dlv.deliveryOpen = true := by decide +kernel
-- R76, R136: a send end that waits finds its frame SENDING.
theorem test_send_end :
    let t := after .sendEnd (endWaits true false { sending with ltx := up.ltx })
    t.jctl.frames.map (fun f => (f.state, f.sentBefore)) = [(.sent, true), (.sent, true), (.sent, true)] ∧
    t.wires.sendReport = false := by decide +kernel
-- R144: a return to CLOSED was taken first, and the late send end changes nothing.
theorem test_late_send_end :
    let t := after .sendEnd (endWaits true false { up with jctl := training.jctl, dlv := { up.dlv with ackTimer := none } })
    t.jctl = training.jctl ∧ t.dlv.ackTimer = none ∧ t.wires.sendEnd = false := by decide +kernel
-- R127: from TRAINING the reply queue is empty at once, and no command is taken in the DOWN that follows.
theorem test_silence_in_training :
    training.handDown.offLine = true ∧ training.handDown.takeDown.alr.flags = 0 := by decide +kernel
-- R176: the link state reads DOWN while frames SENT, read earlier, is 2; the stored reply keeps it.
theorem test_status_link_after_journal :
    ((executing false [(.jctl, up.answer .jctl)] (fallen 0)).finishStatus.cmd.lastTag.map fun r =>
      (r.data[0]?, r.data[5]?, r.data.length)) = some (some 0x00, some 0x02, 64) := by decide +kernel
-- R176: the records lost counter includes a loss whose LOSS flag, read earlier, was not yet set.
theorem test_status_loss_before_flag :
    let s := executing false [(.alr, up.answer .alr)]
      { up with jctl := { up.jctl with recordsLost := 1 }, alr := { up.alr with flags := 0x01 } }
    (s.finishStatus.cmd.lastTag.map fun r => (r.data[16]?, (r.data.drop 26).take 4)) =
      some (some 0x00, [0, 0, 0, 1]) := by decide +kernel
/-- This owner of a GET-STATUS being executed answers now. -/
def answering (o : Config.StatusOwner) (s : State) : State :=
  match s.cmd.reading with
  | some r => s.letAnswer (fun x => decide (x = o)) r
  | none   => s

-- R176: the freeze unit read before a freezing tick (freeze field 00h), the alert unit after it (FREEZE set, LOSS clear), and the
-- journal controller after the tick's FREEZE record has been lost (records lost 1): three moments of one GET-STATUS.
theorem test_status_of_three_moments :
    let s := executing false [] { up with
      jctl := { up.jctl with frames := List.replicate 32 (frame 0 .closed 1), openFrame := none }
      frzu := { up.frzu with filterCode := 0, codeInUse := 0 }, pins := { lowPins with frz := true } }
    let ticked := answering .alr (answering .frzu s).takeTick
    ((ticked.takeClaimsOf (fun w => decide (w = .freezeUnit))).finishStatus.cmd.lastTag.map fun r =>
      (r.data[1]?, r.data[16]?, (r.data.drop 26).take 4)) = some (some 0x00, some 0x20, [0, 0, 0, 1]) := by decide +kernel
-- R175, R176: an owner clears its counters when it answers, and counts on from there.
theorem test_status_clears_at_the_answer :
    let s := answering .dlv (executing true [] { up with dlv := { up.dlv with range := 7 } })
    s.dlv.range = 0 ∧
    (s.countRange.finishStatus.cmd.lastTag.map fun r => (r.data.length, r.data.drop 62)) = some (64, [0, 7]) ∧
    s.countRange.finishStatus.dlv.range = 1 := by decide +kernel
-- R155: the sixteenth CLK period, the end of 2 byte times, ends the execution, and the reply is queued.
theorem test_status_within_two_byte_times :
    let s := executing false [] up
    (s.withCmd { s.cmd with reading := s.cmd.reading.map fun r => { r with periods := 15 } }).statusPeriod.cmd.replies.map
      (fun r => (r.tag, r.data.length)) = [(6, 64)] := by decide +kernel
-- R21, R117: IDLE is read with the request in hand issued, the claim answered before.
theorem test_status_in_hand :
    let t := (executing false [] (claimed otherClaims)).finishStatus
    (t.cmd.lastTag.map fun r => r.data[2]?) = some (some 0x00) ∧ t.path.issued = [req .read 0x20040000 1 3] := by
  decide +kernel
-- R123: a good ACK ends after the silence timer's expiry, whose report is taken before the expiry or in DOWN.
theorem test_report_overtaken :
    let t := after (.downlinkByte 0xC3) { up with
      lctl := { up.lctl with silenceTimer := some 0 }, lrx := { up.lrx with rx := .collecting [0x61, 0x05, 0x75, 0xB1] } }
    t.wires.handedOn = some (.ack 0x05) ∧ t.lctl.silenceTimer = some 0 ∧
    t.takeFrameReport.lctl.silenceTimer = some 1000 ∧ t.handDown.takeFrameReport.lctl.silenceTimer = none := by
  decide +kernel
/-- A state in which a body waits. -/
def given (b : Body) (s : State) : State := { s with wires := { s.wires with handedOn := some b } }

-- R109: an ACK that ends while the HELLO waits that moves the link, judged after the move, and judged before it: STATE 1.
theorem test_ack_meets_the_move :
    let s := (given (.hello 0xFE) { training with
      lrx := { training.lrx with rx := .collecting [0x61, 0x05, 0x75, 0xB1] } }).handedOff.restartSilence.enterUp
    (s.takeByte .up 0xC3).wires.handedOn = some (.ack 0x05) ∧ (s.takeByte .up 0xC3).lrx.discards = training.lrx.discards ∧
    (s.takeByte .training 0xC3).wires.handedOn = none ∧
    (s.takeByte .training 0xC3).lrx.discards = { training.lrx.discards with state := 1 } ∧
    (s.takeByte .training 0xC3).lctl.link = .up := by decide +kernel
-- R123, R124: a HELLO overtaken by the expiry is ignored in DOWN, before the 512th delimiter.
theorem test_overtaken_hello :
    let t := after (.downlinkByte 0xC3) (given (.hello 0xFE) down)
    t.lctl.link = .training ∧ t.wires.handedOn = none ∧ t.jctl = down.jctl := by decide +kernel
-- R165: the reply carries the new epoch.
theorem test_restart : (after (.restartJournal 7 []) up).cmd.replies = [⟨7, 0x0C, .ok, [0x00, 0x01]⟩] := by decide +kernel

/-! ### Witnesses: states and operands that meet the hypotheses of the statements, in their order -/

theorem wit_StepRunsFrontOfQueue : ({ up with pending := [.sendEnd] } : State).pending = .sendEnd :: [] := by decide

/-- UP with a tick and a byte due, or not. -/
def due (tick byte : Bool) : State :=
  { up with tbs := { up.tbs with tickDue := tick }, ltx := { up.ltx with byteDue := byte } }

/-- A state in which a frame-received report waits. -/
def reporting (s : State) : State := { s with wires := { s.wires with frameReport := true } }

-- A claim of the path controller made; none, with a report waiting; none, with a tick due; a send end or a report that waits;
-- none of these, with a byte due and without; a GET-STATUS being executed, with the sixteenth period to come.
theorem wit_EmptyQueuePassesOneClkPeriod :
    ((∃ r a body, (claimed []).path.state = .claiming r a body) ∧ (claimed []).cmd.reading = none ∧
      exec (.appendClaim .path) (claimed []) = .next (after (.appendClaim .path) (claimed []))) ∧
    (∀ tick byte, (∀ w ∈ (due tick byte).wires.claims, w.claimant ≠ .path) ∧ (due tick byte).path.state = .idle ∧
      (due tick byte).wires.frameReport = false ∧ (reporting (due tick byte)).wires.frameReport = true ∧
      (due tick byte).cmd.reading = none) ∧
    ((due true true).pending = [] ∧ (due true true).tbs.tickDue = true ∧
      exec (.tick (due true true).pins) (due true true) = .next (after (.tick (due true true).pins) (due true true))) ∧
    (∀ q ∈ [(true, false), (false, true), (true, true)], let s := endWaits q.1 q.2 (due false true)
      s.pending = [] ∧ s.tbs.tickDue = false ∧ (s.wires.sendEnd = true ∨ s.wires.sendReport = true)) ∧
    exec .sendEnd (endWaits true false up) = .next (after .sendEnd (endWaits true false up)) ∧
    (∀ b, (due false b).pending = [] ∧ (due false b).tbs.tickDue = false ∧ (due false b).wires.sendEnd = false ∧
      (due false b).wires.sendReport = false ∧ (due false b).ltx.byteDue = b) ∧
    ((executing true [] up).pending = [] ∧ (executing true [] up).cmd.reading = some ⟨6, true, [], 0⟩ ∧ 0 < 16 ∧
      16 ≤ 0 + 16) :=
  ⟨⟨⟨_, _, _, rfl⟩, rfl, rfl⟩, fun _ _ => ⟨nofun, rfl, rfl, rfl, rfl⟩, ⟨rfl, rfl, rfl⟩, by decide, rfl,
   fun _ => ⟨rfl, rfl, rfl, rfl, rfl⟩, rfl, rfl, by decide⟩

/-- UP with a REPLY body in progress. -/
def replying : State := { up with ltx := up.ltx.start .reply [0x52] }

/-- UP with an abort still to be sent. -/
def aborted : State := { up with ltx := sending.ltx.abortBody }

-- No abort, before any body and before a JOURNAL body; an abort; the boundary.
theorem wit_UplinkLineCarriesBody :
    up.ltx.abortBytes = [] ∧ (∀ seq, (TxKind.reply : TxKind) ≠ .journal seq) ∧
    (∃ seq, sending.ltx.body.map (·.kind) = some (.journal seq)) ∧ sending.wires.sendEnd = false ∧
    sending.wires.sendReport = false ∧
    aborted.ltx.abortBytes = 0xCC :: [0xC3] ∧
    up.ltx.body = none :=
  ⟨rfl, nofun, ⟨0x00, rfl⟩, rfl, rfl, rfl, rfl⟩

/-- The journal of `up` is sound. -/
theorem up_journal_sound : up.jctl.sound := by
  refine ⟨by decide +kernel, by decide +kernel, ?_, ?_, ?_, ?_, by decide +kernel⟩
  · simp [up, runsUpTo, Journal.heldSeqs, frame, openFrame]
  · simp [up, statesInOrder, frame]
  · simp [up, frameSound, frame, bytesOf, recordLength, beatsOf]
  · simp [up, openSound, openFrame, bytesOf, recordLength, beatsOf]

/-- The link parts of `up` are sound. -/
theorem up_link_sound : up.receiverSound ∧ up.linkTimersSound ∧ up.settleSound ∧ up.entrySound :=
  ⟨(.inl (by decide) : up.lctl.link ≠ .down ∨ up.wires.falling.lrx = true),
   (by decide : up.lctl.silenceTimer ≠ none ∧ up.lctl.helloTimer = none ∧ up.ltx.helloPending = false), by decide,
   by decide⟩

/-- The line and the clock of `up` are sound. -/
theorem up_clock_sound : up.lineSound ∧ up.clockSound :=
  ⟨(by decide : up.ltx.bytesSent = 0 ∧ up.ltx.escapeSent = false ∧ up.ltx.check = 0xFFFF), by decide⟩

/-- The path parts of `up` are sound. -/
theorem up_path_sound : up.trackingSound ∧ up.portsSound ∧ up.stallSound :=
  ⟨⟨by decide, by decide, (by decide : up.path.tracking.all (fun it => !it.isPreRead) = true)⟩, by decide,
   (by decide : up.path.stallTimer = none)⟩

/-- The delivery and command parts of `up` are sound. -/
theorem up_delivery_sound : up.quietUnlessUp ∧ up.deliverySound ∧ up.commandsSound :=
  ⟨by decide +kernel, by decide +kernel, (by decide : up.cmd.replies.length ≤ 4 ∧ up.cmd.execState = .ready)⟩

/-- The body in progress, none or that of the SENDING frame, matches the frame list. -/
theorem up_body_sound : up.bodyMatchesFrame ∧ sending.bodyMatchesFrame :=
  ⟨(by decide +kernel : up.wires.sendEnd = false → up.wires.falling.dlv = false → up.jctl.sendingSeq = none),
   (by decide +kernel : sending.jctl.sendingSeq = some 0x00 ∧ sending.wires.sendEnd = false)⟩

theorem wit_SoundIsKept : up.Sound ∧ step up = .next up.clkPeriod := by
  obtain ⟨quiet, delivery, commands⟩ := up_delivery_sound
  obtain ⟨receiver, timers, settle, entry⟩ := up_link_sound
  obtain ⟨line, clock⟩ := up_clock_sound
  obtain ⟨tracking, ports, stall⟩ := up_path_sound
  exact ⟨{ params := by decide +kernel, windows := by decide +kernel, journal := up_journal_sound
           retried := by decide +kernel, quiet, delivery, body := up_body_sound.1, line, clock, receiver, timers, entry
           settle, commands, tracking, ports, stall, age := by simp [State.ageMatchesTime, up, openFrame, State.reset,
             State.afterReset, Timebase.reset] }, rfl⟩

theorem wit_ConfigurationStaysInRange :
    step up = .next up.clkPeriod ∧ up.paramsInRange ∧ up.windowsSound := ⟨rfl, by decide +kernel, by decide +kernel⟩

theorem wit_JournalStaysSound :
    up.paramsInRange ∧ up.jctl.sound ∧ up.jctl.onlyOldestRetried ∧ step up = .next up.clkPeriod :=
  ⟨by decide +kernel, up_journal_sound, by decide +kernel, rfl⟩

theorem wit_DeliveryStaysSound :
    up.paramsInRange ∧ up.entrySound ∧ up.quietUnlessUp ∧ up.deliverySound ∧ up.commandsSound ∧
    step up = .next up.clkPeriod :=
  ⟨by decide +kernel, up_link_sound.2.2.2, up_delivery_sound.1, up_delivery_sound.2.1, up_delivery_sound.2.2, rfl⟩

theorem wit_LinkStaysSound :
    up.paramsInRange ∧ (up.receiverSound ∧ up.linkTimersSound ∧ up.settleSound ∧ up.entrySound) ∧
    (up.lineSound ∧ up.clockSound) ∧ step up = .next up.clkPeriod :=
  ⟨by decide +kernel, up_link_sound, up_clock_sound, rfl⟩

theorem wit_PathStaysSound :
    up.trackingSound ∧ up.portsSound ∧ up.stallSound ∧ step up = .next up.clkPeriod :=
  ⟨up_path_sound.1, up_path_sound.2.1, up_path_sound.2.2, rfl⟩

theorem wit_ConfigurationChangesOnlyByCommand :
    exec .sendEnd up = .next (after .sendEnd up) ∧ (∀ p, Instr.sendEnd ≠ .coldReset p) ∧
    (∀ r, Instr.sendEnd ≠ .requestTaken r) ∧ carriesCode 0x02 .sendEnd up = false ∧ carriesCode 0x03 .sendEnd up = false ∧
    carriesCode 0x05 (.setEntry 7 []) up = false ∧ exec (.setEntry 7 []) up = .next (after (.setEntry 7 []) up) :=
  ⟨rfl, nofun, nofun, rfl, rfl, rfl, rfl⟩

theorem wit_PathAndLinkCommandsKeepApart :
    isPathCommand .stallTimerExpiry = true ∧ isLinkCommand (.ack 0x00) up = true ∧
    isLinkCommand (.ack 0x00) (executing true [] up) = true := ⟨rfl, rfl, rfl⟩

theorem wit_AlertsAndCountersAreKept :
    exec (.ack 0x01) up = .next (after (.ack 0x01) up) ∧ (∀ p, Instr.ack 0x01 ≠ .coldReset p) ∧
    carriesCode 0x07 (.ack 0x01) up = false ∧ carriesCode 0x06 (.ack 0x01) up = false ∧
    (∀ r, up.cmd.reading = some r → r.clear = false) ∧
    (∀ r, (executing false [] up).cmd.reading = some r → r.clear = false) :=
  ⟨rfl, nofun, rfl, rfl, nofun, by simp [executing]⟩

-- The last word of the address space.
theorem wit_WindowOverlapsOnCommonByte :
    (0xFFFFFFFC : Addr) ≤ 0xFFFFFFFF ∧
    (req .read 0xFFFFFFFC 1 0).address.toNat + 4 * (req .read 0xFFFFFFFC 1 0).beatCount ≤ 2 ^ 32 := by
  decide

theorem wit_SourceMatchComparesMaskedBits :
    (∀ i < 4, (12 : BitVec 4).getLsbD i = true → (8 : BitVec 4).getLsbD i = (11 : BitVec 4).getLsbD i) ∧
    entryOfArgs (List.replicate 18 0) ≠ none := by decide +kernel

-- Both sides of the two equivalences.
theorem wit_LowestQualifyingEntryGoverns :
    table.governing (req .write 0x20000100 1 3) ≠ none ∧ table.governing (req .write 0x50000000 1 3) = none := by
  decide +kernel

theorem wit_EntryLayoutRoundTrips :
    (0x0F :: List.replicate 8 0 ++ [3] ++ List.replicate 8 (0 : Byte)).length = 18 ∧
    (table.setEntry (0x0F :: List.replicate 8 0 ++ [3] ++ List.replicate 8 (0 : Byte))).2 = .ok := by decide +kernel

theorem wit_JournalBytesDetermineRecords :
    (∀ r ∈ [Record.mk (.write 1 3 0 0 [15] (.both [word] [word])) 0], r.body.complete = true) ∧
    [Record.mk (.write 1 3 0 0 [15] (.both [word] [word])) 0].flatMap recordBytes =
      [Record.mk (.write 1 3 0 0 [15] (.both [word] [word])) 0].flatMap recordBytes := ⟨by decide, rfl⟩

/-- The MARK claim of 7 bytes. -/
def markClaim (close : CloseOption) : Claim := { body := .mark .recorder 1, policy := .drop, close }

/-- A journal whose OPEN frame has 23 records, 253 bytes, before a frame of so many records of 11 bytes. -/
def nearlyFull (age records limit : Nat) : Journal :=
  { Journal.reset with frames := [frame 0 .closed records], openFrame := some { openFrame 1 23 with age }
                       nextSeq := 2, frameLimit := limit }

/-- The claim of a WRITE record of form ADDRESS: 10 bytes and one for each beat. -/
def writeClaim (beatsLess1 : BitVec 4) : Claim :=
  { body := .write 0 0 beatsLess1 0 [] .address, policy := .drop, close := .none }

-- Byte count and needed space at FRAME-LIMIT, age 65535, and as many free store bytes as needed; each passed by one.
theorem wit_ClaimIsDecidedByTests_open :
    recordLength (writeClaim 5).body = 16 ∧ recordLength (writeClaim 6).body = 17 ∧
    bytesOf (openFrame 1 23).records + 16 = 269 ∧ (nearlyFull 65535 1465 269).frameLimit = 269 ∧
    16384 - (nearlyFull 65535 1465 269).storeUsed = 16 ∧ (nearlyFull 65535 1465 268).frameLimit = 268 ∧
    (nearlyFull 65536 1465 269).openFrame.map (·.age) = some 65536 := by decide +kernel

/-- So many held frames, none OPEN, with 16 free store bytes. -/
def manyFrames (n : Nat) : Journal :=
  { Journal.reset with frames := frame 0 .closed (1489 - n) :: List.replicate (n - 1) (frame 1 .closed 1) }

-- 31 and 32 frames, with 16 free store bytes for a claim of 16 and one of 17.
theorem wit_ClaimIsDecidedByTests_new :
    (manyFrames 31).frames.length = 31 ∧ (manyFrames 32).frames.length = 32 ∧ (manyFrames 31).openFrame = none ∧
    16384 - (manyFrames 31).storeUsed = 16 ∧ (writeClaim 5).close = .none := by decide +kernel

theorem wit_CloseOptionClosesTheFrame :
    (markClaim .mark).close ≠ .none ∧ (up.jctl.take 0 (markClaim .none)).2 = .appended ∧
    (Journal.take 0 (markClaim .none) { Journal.reset with frames := List.replicate 32 (frame 0 .closed 1) }).2 =
      .noSpace := by decide +kernel

theorem wit_AppendClaimTakesOldestOfClaimant :
    (∀ w ∈ [WaitingClaim.mk .path (markClaim .none)], w.claimant ≠ .freezeUnit) ∧
    ({ Wires.reset with claims := [⟨.path, markClaim .none⟩] ++ ⟨.freezeUnit, markClaim .none⟩ :: [] } : Wires).claims =
      [⟨.path, markClaim .none⟩] ++ ⟨.freezeUnit, markClaim .none⟩ :: [] ∧
    (∀ w ∈ (claimed []).wires.claims, w.claimant ≠ .failed) ∧ (∀ w ∈ up.wires.claims, w.claimant ≠ .path) ∧
    up.path.state = .idle := by decide

-- Unwatched, and a read and a write of form NONE; seven items, one place free.
theorem wit_UncapturedRequestIsForwarded :
    let s := withPath { Path.reset with tracking := List.replicate 7 (item .unwatched .waiting)
                                        issued := List.replicate 7 (req .read 0x20000100 1 3) }
    s.path.state = .idle ∧ s.path.tracking.length < 8 ∧ s.portsSound ∧
    s.wtab.governing (req .write 0x50000000 1 3) = none ∧
    (s.wtab.governing (req .read 0x20000010 1 3)).map (fun p => (p.1.readForm, p.2)) = some (.none, 0) ∧
    (s.wtab.governing (req .write 0x20000040 2 3)).map (fun p => (p.1.writeForm, p.1.freezable, p.2)) =
      some (.none, false, 0) := by decide +kernel

-- Eight items; unwatched and watched; and not IDLE.
theorem wit_RequestWaitsForAPlace :
    let s := withPath { waiting.path with state := .idle }
    s.path.state = .idle ∧ 8 ≤ s.path.tracking.length ∧ s.wtab.governing (req .read 0x20002000 1 3) = none ∧
    s.wtab.governing (req .write 0x20000100 1 3) ≠ none ∧ hold.path.state ≠ .idle := by decide +kernel

theorem wit_RefusedWriteIsAnsweredLocally :
    let s := { up with frzu := { up.frzu with commandFreeze := true } }
    s.path.state = .idle ∧ s.path.tracking.length < 8 ∧ s.portsSound ∧
    (s.wtab.governing (req .write 0x20000200 1 3)).map (fun p => (p.1.freezable, p.2)) = some (true, 1) ∧
    (req .write 0x20000200 1 3).kind = .write ∧ s.frzu.effective = true := by decide +kernel

/-- UP with 32 frames held, so that every claim is answered NO-SPACE. -/
def full : State := { up with jctl := manyFrames 32 }

-- Requests d, e and h of Table 1-5; the claim of h made, appended and NO-SPACE under HOLD and under DROP.
theorem wit_CapturedRequestIsClaimedFirst :
    (∀ s ∈ [up, full], s.path.state = .idle ∧ s.path.tracking.length < 8 ∧ s.portsSound ∧ s.frzu.effective = false ∧
      (s.wtab.governing (req .write 0x20002000 4 9)).map (fun p => (p.1.writeForm, p.1.lossPolicy, p.2)) =
        some (.after, .drop, 2) ∧
      (s.wtab.governing (req .write 0x20002000 4 3)).map (fun p => (p.1.writeForm, p.1.lossPolicy, p.2)) =
        some (.address, .drop, 3) ∧
      (s.wtab.governing (req .read 0x20040000 1 3)).map (fun p => (p.1.readForm, p.1.lossPolicy, p.2)) =
        some (.address, .hold, 4)) ∧
    (∀ w ∈ (claimed otherClaims).wires.claims, w.claimant ≠ .path) ∧
    (claimed []).path.state =
      .claiming (req .read 0x20040000 1 3) ⟨4, .address, .hold, false, .error, true⟩ (.read 4 3 0 0x20040000) ∧
    ((claimed []).claim { body := .read 4 3 0 0x20040000, policy := .hold, close := .entry }).2 = .appended ∧
    (∀ policy ∈ [LossPolicy.hold, LossPolicy.drop],
      (State.claim { body := .read 4 3 0 0x20040000, policy, close := .entry }
        { claimed [] with jctl := full.jctl }).2 = .noSpace) := by decide +kernel

theorem wit_FormBothReadsMemoryFirst :
    up.path.state = .idle ∧ up.path.tracking.length < 8 ∧ up.portsSound ∧ up.frzu.effective = false ∧
    (up.wtab.governing (req .write 0x20000100 1 3)).map (fun p => p.1.writeForm) = some .both ∧
    (req .write 0x20000100 1 3).kind = .write := by decide +kernel

theorem wit_BeforeImageEntersTheRecord :
    preRead.path.state = .preRead (req .write 0x20000100 1 3) attributes1 ∧
    preRead.path.tracking = [item .preRead .waiting] ∧ preRead.path.held = [] ∧
    (req .write 0x20000100 1 3).kind = .write ∧ attributes1.form = .both := by decide

/-- UP with one item waiting for memory. -/
def oneItem (it : Item) : State := withPath { Path.reset with tracking := [it], issued := [req .read 0x20000100 1 3] }

/-- UP with one item that answers, and a response held back. -/
def answeringHead : State :=
  withPath { Path.reset with tracking := [item .unwatched (.answering ⟨.okay, [word]⟩)], held := [⟨.okay, [word]⟩] }

-- The tracking list of a state in IDLE whose items are not PRE-READ.
theorem wit_ResponseMeetsTheHead :
    (oneItem (item .unwatched .waiting)).trackingSound ∧ (oneItem (item .unwatched .waiting)).portsSound ∧
    (oneItem { item (.forwarded 1 true) .waiting with kind := .write }).trackingSound ∧
    (oneItem { item (.forwarded 1 true) .waiting with kind := .write }).portsSound ∧
    answeringHead.trackingSound ∧ answeringHead.portsSound :=
  ⟨⟨by decide, by decide, (by decide : (oneItem (item .unwatched .waiting)).path.tracking.all _ = true)⟩, by decide,
   ⟨by decide, by decide,
    (by decide : (oneItem { item (.forwarded 1 true) .waiting with kind := .write }).path.tracking.all _ = true)⟩,
   by decide, ⟨by decide, by decide, (by decide : answeringHead.path.tracking.all _ = true)⟩, by decide⟩

/-- UP with a LOCAL item alone. -/
def localHead : State := withPath { Path.reset with tracking := [item (.local .error) (.answering ⟨.error, []⟩)] }

/-- UP with an answering head before one more item. -/
def twoItems (second : Item) (held : List Response) : State := withPath
  { Path.reset with tracking := [item .unwatched (.answering ⟨.okay, [word]⟩), second], held
                    issued := if second.awaitsMemory then [req .read 0x20000100 1 3] else [] }

/-- PRE-READ for the request c behind an answering head, with the response to the before-image read and one more held. -/
def preReadHeld : State :=
  let s := twoItems (item .preRead .waiting) [⟨.okay, [word]⟩, ⟨.okay, [word]⟩]
  withPath { s.path with state := .preRead (req .write 0x20000100 1 3) attributes1 }

-- R28, log 29: the response held behind the response to the before-image read is unmatched.
theorem test_held_behind_before_image :
    let t := after .responseAccepted preReadHeld
    t.path.unmatchedResponses = 1 ∧ t.path.held = [] ∧
    t.path.state =
      .claiming (req .write 0x20000100 1 3) attributes1 (.write 1 3 0 0x20000100 [15] (.both [word] [word])) := by
  decide +kernel

theorem wit_UnmatchedResponseIsCounted :
    up.path.tracking = [] ∧ up.trackingSound ∧ up.portsSound ∧
    localHead.path.tracking ≠ [] ∧ (∀ it ∈ localHead.path.tracking, ∃ st, it.cls = .local st) ∧
    localHead.trackingSound ∧ localHead.portsSound ∧
    (∃ it x, answeringHead.path.tracking = [it] ∧ it.phase = .answering x) ∧
    answeringHead.trackingSound ∧ answeringHead.portsSound ∧
    (∃ it pre x y more, preReadHeld.path.tracking = [it, pre] ∧ it.phase = .answering x ∧ pre.cls = .preRead ∧
      preReadHeld.path.state = .preRead (req .write 0x20000100 1 3) attributes1 ∧ attributes1.form = .both ∧
      preReadHeld.path.held = y :: more) ∧
    preReadHeld.trackingSound ∧ preReadHeld.portsSound :=
  ⟨by decide, up_path_sound.1, up_path_sound.2.1, by decide, by simp [localHead, withPath, item],
   ⟨by decide, by decide, (by decide : localHead.path.tracking.all _ = true)⟩, by decide, ⟨_, _, rfl, rfl⟩,
   wit_ResponseMeetsTheHead.2.2.2.2.1, wit_ResponseMeetsTheHead.2.2.2.2.2, ⟨_, _, _, _, _, rfl, rfl, rfl, rfl, rfl, rfl⟩,
   ⟨by decide, by decide, (by decide : (preReadHeld.path.tracking.dropLast.all fun it => !it.isPreRead) = true ∧
      (preReadHeld.path.tracking.getLast?.any fun it => it.isPreRead && decide (it.phase = .waiting)) = true)⟩, by decide⟩

/-- WAIT-SLOT behind an answering head, a second item and six more, with responses held. -/
def waitingBefore (second : Item) (held : List Response) : State := withPath
  { waiting.path with tracking := item .unwatched (.answering ⟨.okay, [word]⟩) :: second ::
                        List.replicate 6 (item .unwatched .waiting)
                      held, issued := List.replicate (if second.awaitsMemory then 7 else 6) (req .read 0x20000100 1 3) }

-- IDLE and WAIT-SLOT, each before a FORWARDED head with no, one and two responses held and before a LOCAL head.
theorem wit_AcceptedResponseFreesThePlace :
    (∀ held ∈ [[], [⟨.okay, [word]⟩], [⟨.okay, [word]⟩, ⟨.error, [word]⟩]],
      (twoItems (item .unwatched .waiting) held).portsSound ∧
      (waitingBefore (item .unwatched .waiting) held).portsSound ∧
      (∀ st, ([item .unwatched .waiting].head?.map (·.cls)) ≠ some (.local st))) ∧
    (twoItems (item (.local .okay) .waiting) []).portsSound ∧ (waitingBefore (item (.local .okay) .waiting) []).portsSound ∧
    (∀ second ∈ [item .unwatched .waiting, item (.local .okay) .waiting],
      (onlyHeadAnswers (twoItems second []).path.tracking ∧ (twoItems second []).path.state = .idle) ∧
      onlyHeadAnswers (waitingBefore second []).path.tracking ∧ (waitingBefore second []).path.tracking.length = 8 ∧
      (waitingBefore second []).path.state = .waitSlot ⟨req .read 0x50000000 1 3, none⟩) ∧
    (∀ s ∈ [withPath { (twoItems (item .unwatched .waiting) []).path with tracking := [item .unwatched .waiting] },
        withPath { (waitingBefore (item .unwatched .waiting) []).path with
          state := .idle, tracking := List.replicate 7 (item .unwatched .waiting) }],
      ∃ t, execAll (([⟨.okay, [word]⟩, ⟨.error, [word]⟩] : List Response).map .downstreamResponse) s = .next t) ∧
    waiting.trackingSound ∧
    (∀ it, (oneItem (item .unwatched .waiting)).path.tracking.head? = some it → it.phase = .waiting) :=
  ⟨by simp [item]; decide +kernel, by decide +kernel, by decide +kernel, by decide +kernel,
   by
     rintro s hs
     simp only [List.mem_cons, List.not_mem_nil, or_false] at hs
     rcases hs with rfl | rfl <;> exact ⟨_, rfl⟩,
   ⟨by decide +kernel, by decide +kernel,
    (by decide +kernel : waiting.path.tracking.length = 8 ∧ waiting.path.tracking.all _ = true)⟩,
   by simp [oneItem, withPath, item]⟩

/-- The claim that the read in HOLD repeats. -/
def claimH : Claim := { body := .read 4 3 0 0x20040000, policy := .hold, close := .entry }

-- The report that waits, appended and NO-SPACE; the expiry that is due; a report out of HOLD; neither waiting nor due.
theorem wit_HoldEndsBySpaceOrExpiry :
    (∀ j ∈ [up.jctl, manyFrames 32],
      let s := { hold with jctl := j }
      s.portsSound ∧ s.path.inHold = true ∧ s.wires.spaceFreed = 0 + 1 ∧ s.path.stallTimer = some 0) ∧
    (hold.claim claimH).2 = .appended ∧ (State.claim claimH { hold with jctl := manyFrames 32 }).2 = .noSpace ∧
    (let s := { up with wires := { up.wires with spaceFreed := 1 } }
     s.portsSound ∧ s.path.state = .idle ∧ s.wires.spaceFreed = 0 + 1) ∧
    up.portsSound ∧ up.wires.spaceFreed = 0 ∧ up.path.stallTimer ≠ some 0 := by decide +kernel

/-- UP with a tick due and the claim of a marker edge waiting behind that of the freeze unit. -/
def markWaiting : State :=
  { due true true with wires := { up.wires with
      claims := [⟨.freezeUnit, markClaim .none⟩, ⟨.marker .m0, markClaim .none⟩] } }

-- A tick that is not due; one that is due with a marker claim waiting; one that is due with none.
theorem wit_TickCountsEverywhere :
    (up.tbs.tickDue = false ∧ step { up with pending := [] } = .next { up.clkPeriod with pending := [] }) ∧
    (markWaiting.tbs.tickDue = true ∧
      markWaiting.wires.claims = [⟨.freezeUnit, markClaim .none⟩] ++ ⟨.marker .m0, markClaim .none⟩ :: [] ∧
      (∀ w ∈ [WaitingClaim.mk .freezeUnit (markClaim .none)], ∀ q, w.claimant ≠ .marker q)) ∧
    ((due true true).tbs.tickDue = true ∧ (due true true).wires.frameReport = false ∧
      ∀ w ∈ (due true true).wires.claims, ∀ q, w.claimant ≠ .marker q) :=
  ⟨⟨rfl, rfl⟩, ⟨rfl, rfl, by simp⟩, rfl, rfl, nofun⟩

-- The claim of another block may wait.
theorem wit_TickSamplesTheInputs :
    let s := { markWaiting with wires := { up.wires with claims := [⟨.freezeUnit, markClaim .none⟩] } }
    s.tbs.tickDue = true ∧ ∀ w ∈ s.wires.claims, ∀ q, w.claimant ≠ .marker q := ⟨rfl, by simp⟩

-- The longest filter time, one sample before its end and at it; a count that a lowered time has left above it.
theorem wit_FilterNeedsAFullRun :
    7 ≤ 7 ∧ 62 + 1 < 2 ^ (7 - 1) ∧ 2 ^ (7 - 1) ≤ 63 + 1 ∧ 2 ^ (3 - 1) ≤ 5 + 1 ∧ 0 + 1 ≤ 0 + 1 := by decide

theorem wit_IdleCloseAndHelloTimersExpire :
    (let s := { up with jctl := { up.jctl with idleTimer := some 0 } }
     s.jctl.idleTimer = some 0 ∧ s.jctl.openFrame = some (openFrame 0x01 1)) ∧ up.jctl.idleTimer ≠ some 0 ∧
    (let s := { training with lctl := { training.lctl with helloTimer := some 0 } }
     s.lctl.helloTimer = some 0 ∧ s.lctl.link = .training) ∧ training.lctl.helloTimer ≠ some 0 := by decide

-- A HELLO of the entry to UP that the delivery controller has and has not taken.
theorem wit_LinkFallsToDown :
    up.wires.upHello = none ∧ training.wires.upHello = none ∧
    (let s := { up with lctl := { up.lctl with silenceTimer := some 0 }
                        wires := { up.wires with upHello := some 0x00, retryReports := 1 } }
     s.lctl.silenceTimer = some 0 ∧ s.lctl.link = .up ∧ s.wires.retryReports ≠ 0) ∧
    (let s := { training with lctl := { training.lctl with silenceTimer := some 0 } }
     s.lctl.silenceTimer = some 0 ∧ s.lctl.link = .training) ∧
    (let s := { up with lctl := { up.lctl with silenceTimer := some 0 } }
     s.lctl.silenceTimer = some 0 ∧ s.lctl.link = .up) ∧ up.lctl.silenceTimer ≠ some 0 ∧
    (let s := { up with wires := { up.wires with retryReports := 1 } }
     s.wires.retryReports = 0 + 1 ∧ s.lctl.link = .up) ∧
    (∀ s ∈ [up, training], let t := reporting { s with lctl := { s.lctl with silenceTimer := some 0 } }
      t.wires.frameReport = true ∧ t.lctl.silenceTimer = some 0 ∧ t.lctl.link ≠ .down ∧ 1 ≤ t.lctl.silenceLimit) ∧
    (let s := { training with wires := { training.wires with retryReports := 1 } }
     s.wires.retryReports = 0 + 1 ∧ s.lctl.link ≠ .up) ∧ up.wires.retryReports = 0 := by decide

theorem wit_SettledLineEntersTraining :
    State.reset.lctl.link = .down ∧ State.reset.lrx.rx = .notDecoding ∧ State.reset.lrx.settleCode = 3 ∧
    State.reset.lrx.settleCount = 0 ∧ 0 + 1 < 64 * 2 ^ State.reset.lrx.settleCode ∧ 511 < 64 * 2 ^ State.reset.lrx.settleCode ∧ State.reset.cmd.reading = none ∧
    State.reset.wires.falling.lrx = false ∧
    (let s := executing true [] (fallen 0)
     s.lctl.link = .down ∧ s.lrx.rx = .notDecoding ∧ s.wires.falling.lrx = false ∧ s.lrx.settleCode ≤ 3 ∧
     s.cmd.reading ≠ none ∧ s.lrx.settleCount + 1 = 64 * 2 ^ s.lrx.settleCode) ∧ (0xCC : Byte) ≠ 0xC3 ∧
    State.reset.wires.upHello = none ∧ State.reset.wires.handedOn = none ∧
    (∀ b ∈ [Body.hello 0xFE, .ack 0xFE], let s := given b (fallen 0)
     s.lctl.link = .down ∧ s.lrx.rx = .notDecoding ∧ s.wires.falling.lrx = false ∧ s.lrx.settleCode ≤ 3 ∧
     s.wires.upHello = none ∧ s.lrx.settleCount + 1 = 64 * 2 ^ s.lrx.settleCode ∧ s.wires.handedOn = some b ∧
     s.wires.frameReport = false ∧ s.cmd.reading = none) ∧ bodyOfRow (.ack 0xFE) = some (.ack 0xFE) ∧
    exec (.ack 0xFE) (given (.ack 0xFE) (fallen 0)) = .next (after (.ack 0xFE) (given (.ack 0xFE) (fallen 0))) :=
  ⟨by decide, by decide, by decide, by decide, by decide, by decide, by decide, by decide, by decide, by decide, by decide,
   by decide, by decide +kernel, by decide, rfl⟩

-- In TRAINING; UP with the HELLO of its entry not yet taken and nothing out; in UP the last number in range, 00h, and the
-- first out of range, 01h; in DOWN.
theorem wit_RecorderHelloIsTaken :
    (∀ e, up.isNext (.hello e) ∧ training.isNext (.hello e) ∧ down.isNext (.hello e) ∧
      (given (.hello e) up).isNext (.hello e)) ∧
    training.lctl.link = .training ∧
    (let s := { training with lctl := up.lctl, wires := { up.wires with upHello := some 0x00 } }
     s.wires.upHello = some 0x00 ∧ s.jctl.framesOut = 0 ∧ s.lctl.link = .up) ∧
    up.lctl.link = .up ∧ up.wires.upHello = none ∧ up.bodyMatchesFrame ∧
    statesInOrder up.jctl.frames ∧ ((0x00 : Seq) - up.jctl.oldestHeld).toNat = up.jctl.framesSent ∧
    up.jctl.framesSent < ((0x01 : Seq) - up.jctl.oldestHeld).toNat ∧ down.lctl.link = .down :=
  ⟨fun _ => ⟨.inl rfl, .inl rfl, .inl rfl, .inr rfl⟩, by decide, by decide +kernel, by decide, by decide, up_body_sound.1,
   by simp [up, statesInOrder, frame], by decide +kernel, by decide +kernel, by decide⟩

-- Numbers FEh (nothing named), FFh, 00h (the last in range) and 01h.
theorem wit_AckAndNakAreTaken :
    (∀ n, up.isNext (.ack n) ∧ up.isNext (.nak n) ∧ (given (.ack n) up).isNext (.ack n) ∧
      (given (.nak n) up).isNext (.nak n)) ∧ up.dlvCurrent ∧
    ((0xFE : Seq) - up.jctl.oldestHeld).toNat = 0 ∧ ((0x00 : Seq) - up.jctl.oldestHeld).toNat = up.jctl.framesSent ∧
    0 < up.jctl.framesSent ∧ up.jctl.framesSent < ((0x01 : Seq) - up.jctl.oldestHeld).toNat ∧ up.bodyMatchesFrame ∧
    statesInOrder up.jctl.frames :=
  ⟨fun _ => ⟨.inl rfl, .inl rfl, .inr rfl, .inr rfl⟩, by decide, by decide +kernel, by decide +kernel, by decide +kernel,
   by decide +kernel, up_body_sound.1, by simp [up, statesInOrder, frame]⟩

/-- UP with the acknowledgment timer's expiry due and so many retries of the oldest frame. -/
def retried (n : Nat) : State :=
  { up with dlv := { up.dlv with ackTimer := some 0 }
            jctl := { up.jctl with frames := { frame 0xFE .sent 1 with retryCount := n } :: up.jctl.frames.drop 1 } }

-- A retry count at RETRY-LIMIT 4 less 1, at RETRY-LIMIT and at 15; a head that is not SENT; a timer that is not due.
theorem wit_AckTimerExpires :
    (∀ n, (retried n).dlv.ackTimer = some 0 ∧ (retried n).dlv.retryLimit = 4 ∧
      (retried n).jctl.frames = { frame 0xFE .sent 1 with retryCount := n } :: up.jctl.frames.drop 1) ∧
    (frame 0xFE .sent 1).state = .sent ∧ 3 + 1 ≤ (retried 3).dlv.retryLimit ∧ (retried 3).bodyMatchesFrame ∧
    (retried 4).dlv.retryLimit < 4 + 1 ∧ (retried 15).dlv.retryLimit < 15 + 1 ∧
    (let s := { up with dlv := { up.dlv with ackTimer := some 0 }, jctl := training.jctl }
     s.dlv.ackTimer = some 0 ∧ ∀ f, s.jctl.frames.head? = some f → f.state ≠ .sent) ∧ up.dlv.ackTimer ≠ some 0 :=
  ⟨fun _ => ⟨rfl, rfl, rfl⟩, by decide, by decide,
   (by decide +kernel : (retried 3).wires.sendEnd = false → (retried 3).wires.falling.dlv = false →
      (retried 3).jctl.sendingSeq = none), by decide, by decide,
   ⟨rfl, by simp [training, frame]⟩, by decide⟩

-- A JOURNAL body, a REPLY body, an abort, and then none: fill in DOWN, and a HELLO and fill in TRAINING.
theorem wit_FrameBoundaryChoosesTheBody_line :
    sending.ltx.body ≠ none ∧ replying.ltx.body ≠ none ∧
    (aborted.ltx.body = none ∧ aborted.ltx.abortBytes ≠ []) ∧
    (down.ltx.body = none ∧ down.ltx.abortBytes = [] ∧ down.lctl.link = .down) ∧
    (training.ltx.body = none ∧ training.ltx.abortBytes = [] ∧ training.lctl.link = .training ∧
      training.ltx.helloPending = true) ∧
    (let s := { training with ltx := { training.ltx with helloPending := false } }
     s.ltx.body = none ∧ s.ltx.abortBytes = [] ∧ s.lctl.link = .training ∧ s.ltx.helloPending = false) := by
  decide +kernel

-- A send end that waits, with the frame SENDING and with none.
theorem wit_FrameBoundaryChoosesTheBody_sendEnd :
    (let s := endWaits true false { sending with ltx := up.ltx }
     s.ltx.body = none ∧ s.ltx.abortBytes = [] ∧ s.wires.sendEnd = true ∧
     s.jctl.frames = [frame 0xFE .sent 1, frame 0xFF .sent 1] ++ frame 0x00 .sending 1 :: [] ∧
     (frame 0x00 .sending 1).state = .sending ∧
     (∀ g ∈ [frame 0xFE .sent 1, frame 0xFF .sent 1] ++ [], g.state ≠ .sending)) ∧
    (let s := endWaits true false up
     s.ltx.body = none ∧ s.ltx.abortBytes = [] ∧ s.wires.sendEnd = true ∧ (∀ g ∈ s.jctl.frames, g.state ≠ .sending)) ∧
    up.wires.sendEnd = false ∧ down.wires.sendEnd = false ∧ training.wires.sendEnd = false := by decide +kernel

-- In UP: a reply queued; a frame to start with the window open by one; the window full.
theorem wit_FrameBoundaryChoosesTheBody_up :
    (up.ltx.body = none ∧ up.ltx.abortBytes = [] ∧ up.lctl.link = .up) ∧
    (let s := { up with cmd := { up.cmd with replies := [⟨1, 0x08, .ok, []⟩] } }
     s.ltx.body = none ∧ s.ltx.abortBytes = [] ∧ s.lctl.link = .up ∧ s.cmd.replies = ⟨1, 0x08, .ok, []⟩ :: []) ∧
    (let s := { up with dlv := { up.dlv with sendWindow := 3 } }
     s.cmd.replies = [] ∧ s.dlv.deliveryOpen = true ∧ s.jctl.framesOut < s.dlv.sendWindow ∧
     (∀ g ∈ s.jctl.frames, g.state ≠ .sending) ∧
     s.jctl.frames = [frame 0xFE .sent 1, frame 0xFF .sent 1] ++ frame 0x00 .closed 1 :: [] ∧
     (∀ g ∈ [frame 0xFE .sent 1, frame 0xFF .sent 1], g.state ≠ .closed) ∧ (frame 0x00 .closed 1).state = .closed) ∧
    (let s := { up with dlv := { up.dlv with sendWindow := 2 } }
     s.cmd.replies = [] ∧ s.dlv.sendWindow ≤ s.jctl.framesOut) := by decide +kernel

/-- The JOURNAL body of 2 bytes of `sending` with so many bytes sent, in a byte time that has begun or not. -/
def sentSoFar (n : Nat) (byteDue : Bool) : State := { sending with ltx := { sending.ltx with bytesSent := n, byteDue } }

-- A send end that waits, with the frame SENDING and with none; a report that waits alone.
theorem wit_SendEndMakesTheFrameSent_waiting :
    (let s := endWaits true false { sending with ltx := up.ltx }
     s.wires.sendEnd = true ∧ s.jctl.frames = [frame 0xFE .sent 1, frame 0xFF .sent 1] ++ frame 0x00 .sending 1 :: [] ∧
     (frame 0x00 .sending 1).state = .sending ∧
     (∀ g ∈ [frame 0xFE .sent 1, frame 0xFF .sent 1] ++ [], g.state ≠ .sending)) ∧
    ((endWaits true true up).wires.sendEnd = true ∧ ∀ g ∈ (endWaits true true up).jctl.frames, g.state ≠ .sending) ∧
    ((endWaits false true up).wires.sendReport = true ∧ (endWaits false true up).wires.sendEnd = false) := by
  decide +kernel

-- All 4 bytes sent, with the frame SENDING and with none; 3 bytes sent; no byte time begun; no JOURNAL body.
theorem wit_SendEndMakesTheFrameSent :
    (∀ n due, (sentSoFar n due).ltx.body = some ⟨.journal 0x00, [0x4A, 0x00]⟩ ∧
      (sentSoFar n due).wires.sendEnd = false ∧ (sentSoFar n due).wires.sendReport = false) ∧
    ((sentSoFar 4 true).ltx.byteDue = true ∧ ([0x4A, 0x00] : List Byte).length + 2 ≤ (sentSoFar 4 true).ltx.bytesSent ∧
      (sentSoFar 4 true).jctl.frames = [frame 0xFE .sent 1, frame 0xFF .sent 1] ++ frame 0x00 .sending 1 :: [] ∧
      (frame 0x00 .sending 1).state = .sending ∧
      (∀ g ∈ [frame 0xFE .sent 1, frame 0xFF .sent 1] ++ [], g.state ≠ .sending)) ∧
    (∀ g ∈ ({ sentSoFar 4 true with jctl := up.jctl } : State).jctl.frames, g.state ≠ .sending) ∧
    (sentSoFar 3 true).ltx.bytesSent < ([0x4A, 0x00] : List Byte).length + 2 ∧ (sentSoFar 4 false).ltx.byteDue = false ∧
    up.ltx.inJournal = false ∧ replying.ltx.inJournal = false :=
  ⟨fun _ _ => ⟨rfl, rfl, rfl⟩, by decide +kernel, by decide +kernel, by decide, rfl, rfl, rfl⟩

/-- A receiver that has collected a body up to and with its check value. -/
def collected (link : Link) (payload : List Byte) : State :=
  { up with lctl := { up.lctl with link }
            lrx := { up.lrx with rx := .collecting (payload ++ be16 (checkValue payload)) } }

-- The longest COMMAND, and a HELLO in TRAINING; both collected; an ACK whose row meets a waiting NAK, and one that waits while a body is
-- collected.
theorem wit_DownlinkFrameIsHandedOn :
    (up.lctl.link = .up ∧ up.lrx.rx = .between ∧ up.wires.handedOn = none ∧ up.wires.upHello = none ∧
      up.wires.frameReport = false ∧ up.cmd.reading = none ∧
      (∀ tag code args, Body.command 7 0x08 (List.replicate 59 0xC3) = .command tag code args → args.length ≤ 59)) ∧
    (training.lctl.link = .training ∧ training.lrx.rx = .between ∧ training.wires.upHello = none ∧
      training.wires.frameReport = false ∧ training.cmd.reading = none ∧ ∃ e, Body.hello 0xC3 = .hello e) ∧
    (∀ b ∈ [Body.command 7 0x08 (List.replicate 59 0xC3), .hello 0xC3], ∀ link ∈ [Link.training, Link.up],
      (collected link (downlinkBody b)).lrx.rx = .collecting (withCheck (downlinkBody b)) ∧
      (collected link (downlinkBody b)).wires.handedOn = none) ∧
    (bodyOfRow (.ack 5) = some (.ack 5) ∧ (given (.nak 5) up).wires.handedOn = some (.nak 5) ∧ Body.nak 5 ≠ .ack 5) ∧
    (let s := given (.ack 5) { up with lrx := { up.lrx with rx := .collecting [0x61] } }
     s.wires.handedOn = some (.ack 5) ∧ exec (.ack 5) s = .next (after (.ack 5) s) ∧ s.lrx.rx = .collecting [0x61] ∧
     s.wires.frameReport = false) ∧ (reporting up).wires.frameReport = true :=
  ⟨⟨rfl, rfl, rfl, rfl, rfl, rfl, by rintro _ _ _ ⟨⟩; decide⟩, ⟨rfl, rfl, rfl, rfl, rfl, _, rfl⟩,
   fun _ _ _ _ => ⟨rfl, rfl⟩, ⟨rfl, rfl, nofun⟩,
   ⟨rfl, rfl, rfl, rfl⟩, rfl⟩

/-- UP with the receiver in a decoding state. -/
def receiving (rx : RxState) : State := { up with lrx := { up.lrx with rx := rx } }

-- Each decoding state; 63 and 64 bytes collected.
theorem wit_ReceiverActsOnEachByte :
    (receiving .between).lrx.rx = .between ∧
    (receiving (.collecting (List.replicate 63 0))).lrx.rx = .collecting (List.replicate 63 0) ∧
    (receiving (.collecting (List.replicate 64 0))).lrx.rx = .collecting (List.replicate 64 0) ∧ (0xCC : Byte) ≠ 0xC3 ∧
    (receiving (.escaped (List.replicate 64 0))).lrx.rx = .escaped (List.replicate 64 0) ∧
    (receiving (.discarding .escape)).lrx.rx = .discarding .escape ∧
    (receiving (.discarding .length)).lrx.rx = .discarding .length := by decide +kernel

-- Fewer than 3 bytes; a wrong check value (section 6.3.1).
theorem wit_FailingBodiesAreDiscarded_early :
    (let s := receiving (.collecting [0x61, 0x05])
     s.lrx.rx = .collecting [0x61, 0x05] ∧ s.wires.handedOn = none ∧ s.wires.upHello = none ∧ s.wires.frameReport = false ∧
     ([0x61, 0x05] : List Byte).length < 3) ∧
    (let s := receiving (.collecting [0x61, 0x05, 0x75, 0xB2])
     s.lrx.rx = .collecting ([0x61, 0x05] ++ [0x75, 0xB2]) ∧
     (0x75 : Byte) ++ (0xB2 : Byte) ≠ checkValue [0x61, 0x05]) := by decide +kernel

-- A right check value with an unknown kind; with an ACK of 5 bytes; with COMMANDs of 4 bytes; and an ACK and COMMANDs of
-- 5 and 64 bytes in TRAINING; these and a HELLO in DOWN.
theorem wit_FailingBodiesAreDiscarded_late :
    (∀ payload ∈ ([[0x7A, 0], [0x61, 5, 0], [0x63, 0], [0x61, 5], [0x63, 7, 8], 0x63 :: List.replicate 61 0,
        [0x68, 5]] : List (List Byte)), ∀ link ∈ [Link.training, Link.down],
      (collected link payload).lrx.rx = .collecting (payload ++ be16 (checkValue payload)) ∧
      (collected link payload).lctl.link = link ∧ (collected link payload).wires.handedOn = none ∧
      (collected link payload).wires.upHello = none ∧ (collected link payload).wires.frameReport = false) ∧
    (0x7A : Byte) ∉ ([0x68, 0x61, 0x6E, 0x63] : List Byte) ∧ ([0x61, 5, 0, 0, 0] : List Byte).length ≠ 4 ∧
    ([0x63, 0, 0, 0] : List Byte).length < 5 ∧ ([0x61, 5, 0, 0] : List Byte).length = 4 ∧
    ([0x63, 7, 8, 0, 0] : List Byte).length = 5 ∧ (0x63 :: List.replicate 61 0 ++ [0, 0] : List Byte).length = 64 :=
  ⟨fun _ _ _ _ => ⟨rfl, rfl, rfl, rfl, rfl⟩, by decide⟩

-- An ACK, whose verdict the order of the move decides, and a HELLO, whose verdict it does not, that end while a HELLO waits in
-- TRAINING.
theorem wit_FailingBodiesAreDiscarded_move :
    (∀ bytes, let s := given (.hello 0xFE) { training with lrx := { up.lrx with rx := .collecting bytes } }
     s.lrx.rx = .collecting bytes ∧ s.lctl.link = .training ∧ s.wires.handedOn = some (.hello 0xFE) ∧
     s.wires.frameReport = false ∧ ∃ t, exec (.recorderHello 0xFE) { s with choices := s.choices + 1 } = .next t) ∧
    (∃ b : Body, withCheck [0x61, 0x05] = withCheck (downlinkBody b) ∧ (∀ n, b ≠ .hello n) ∧
      ∀ tag code args, b = .command tag code args → args.length ≤ 59) ∧
    ¬ ∃ b : Body, withCheck [0x68, 0x05] = withCheck (downlinkBody b) ∧ (∀ n, b ≠ .hello n) ∧
      ∀ tag code args, b = .command tag code args → args.length ≤ 59 :=
  ⟨fun _ => ⟨rfl, rfl, rfl, rfl, _, rfl⟩, ⟨.ack 0x05, rfl, nofun, nofun⟩, by
    rintro ⟨b, h, hb, -⟩
    cases b with
    | hello n => exact hb n rfl
    | ack n | nak n | command => simp [withCheck, downlinkBody] at h⟩

-- In TRAINING; with 4 replies in UP and in DOWN before the entry is taken.
theorem wit_CommandsAreDiscarded :
    commandFields (.flush 7 []) = some (7, 0x08, []) ∧ up.isNext (.command 7 0x08 []) ∧
    (given (.command 7 0x08 []) up).isNext (.command 7 0x08 []) ∧
    (training.lctl.link ≠ .up ∧ training.wires.falling.cmd = false ∧ training.isNext (.command 7 0x08 [])) ∧
    (∀ s ∈ [training, queued 4, fallen 4], s.cmd.reading = none) ∧
    ((executing true [] up).cmd.reading ≠ none ∧ (executing true [] up).isNext (.command 7 0x08 [])) ∧
    ((queued 4).lctl.link = .up ∧ 4 ≤ (queued 4).cmd.replies.length) ∧
    ((fallen 4).wires.falling.cmd = true ∧ 4 ≤ (fallen 4).cmd.replies.length) := by decide

-- Three replies queued, in UP and in DOWN before the entry is taken.
theorem wit_DuplicatesAreAnsweredFromMemory :
    commandFields (.mark 7 []) = some (7, 0x09, []) ∧
    (∀ s ∈ [queued 3, fallen 3], s.isNext (.command 7 0x09 []) ∧ s.cmd.reading = none ∧
      (s.lctl.link = .up ∨ s.wires.falling.cmd = true) ∧
      s.cmd.replies.length < 4 ∧ s.cmd.lastTag = some ⟨7, 0x08, .ok, []⟩) := by decide

/-- `up` takes a command with any tag. -/
theorem up_acceptsTag (tag : Byte) : up.acceptsTag tag := ⟨.inl rfl, by decide, nofun, rfl⟩

/-- No body waits in `up`, so any body is the next. -/
theorem up_isNext (b : Body) : up.isNext b := .inl rfl

-- Codes 00h and 0Dh, and GET-ENTRY with no argument byte.
theorem wit_WrongCommandsAreAnswered :
    (up.acceptsTag 7 ∧ ∀ b, up.isNext b) ∧ 0x0C < (0x0D : Byte) ∧ commandFields (.getEntry 7 []) = some (7, 0x01, []) ∧
    ([] : List Byte).length ≠ 1 := ⟨⟨up_acceptsTag 7, up_isNext⟩, by decide, rfl, by decide⟩

/-- The argument bytes of SET_ENTRY for an index, a limit FFh after a base, and one coded byte at a place. -/
def entryArgs (index base : Byte) (place : Nat) (v : Byte) : List Byte :=
  ([index, 1, 0, 0, 0, base, 0, 0, 0, 0xFF] ++ List.replicate 8 0).set place v

-- Indexes 15 and 16; a misaligned base; each coded byte at its largest code and past it.
theorem wit_EntriesAreReadAndWritten :
    (up.acceptsTag 7 ∧ ∀ b, up.isNext b) ∧ up.wtab.entries[(0x0F : Byte).toNat]? ≠ none ∧ 15 < (0x10 : Byte).toNat ∧
    (entryArgs 0x0F 0 1 1).length = 18 ∧
    ((0x01 : BitVec 32).toNat % 4 ≠ 0 ∧ (0xFC : BitVec 32).toNat % 4 = 0 ∧ ((0xFF : BitVec 32).toNat + 1) % 4 = 0) ∧
    (∀ q ∈ ([(1, 1), (10, 2), (12, 3), (13, 1), (14, 1), (15, 1), (16, 1), (17, 1)] : List (Nat × Byte)),
      entryOfArgs (entryArgs 0x0F 0 q.1 q.2) ≠ none ∧ entryOfArgs (entryArgs 0x0F 0 q.1 (q.2 + 1)) = none) :=
  ⟨⟨up_acceptsTag 7, up_isNext⟩, by decide +kernel⟩

theorem wit_ClearTableKeepsOtherFields : up.acceptsTag 3 ∧ ∀ b, up.isNext b := ⟨up_acceptsTag 3, up_isNext⟩

-- Ids 10h and 11h; FRAME-LIMIT at 255, 256, 4096 and 4097; SETTLE-CODE 2 in UP, and in DOWN at count 255 and 256.
theorem wit_ParametersAreReadAndWritten :
    (up.acceptsTag 4 ∧ ∀ b, up.isNext b) ∧ paramOf 0x10 = some .alertEnable ∧ paramOf 0x11 = none ∧
    paramOf 0x01 = some .frameLimit ∧ 255 < paramLeast .frameLimit ∧ paramLeast .frameLimit ≤ 256 ∧
    4096 ≤ paramGreatest .frameLimit ∧ paramGreatest .frameLimit < 4097 ∧
    (∀ n ∈ [255, 256], let s := { fallen 3 with lrx := { down.lrx with settleCount := n } }
      s.acceptsTag 4 ∧ s.isNext (.command 4 0x05 [0x08, 0, 0, 0, 2]) ∧ s.lctl.link = .down ∧ s.lrx.rx = .notDecoding ∧
      s.lrx.settleCount = n) ∧
    255 < 64 * 2 ^ 2 ∧ 64 * 2 ^ 2 ≤ 256 := ⟨⟨up_acceptsTag 4, up_isNext⟩, by decide⟩

/-- Every owner's answer in `up`. -/
def allAnswers : List (Config.StatusOwner × OwnerAnswer) := statusOwners.map fun o => (o, up.answer o)

-- Clear bytes 00h, 01h and 02h. Of the owners of a GET-STATUS that is being executed: the path controller cannot answer yet; all
-- have answered; none has, with a claim for a request in hand unanswered and with none.
theorem wit_StatusIsReadThenCleared :
    (up.acceptsTag 6 ∧ ∀ b, up.isNext b) ∧ (0x02 : Byte) ≠ 0x00 ∧ (0x02 : Byte) ≠ 0x01 ∧
    ((executing true [] (claimed [])).cmd.reading = some ⟨6, true, [], 0⟩ ∧
      (∃ q a body, (executing true [] (claimed [])).path.state = .claiming q a body) ∧
      (∀ o, StatusReading.answerOf ⟨6, true, [], 0⟩ o = none)) ∧
    ((executing true allAnswers down).cmd.reading = some ⟨6, true, allAnswers, 0⟩ ∧
      ∀ o, StatusReading.answerOf ⟨6, true, allAnswers, 0⟩ o = some (up.answer o)) ∧
    (executing false [] up).cmd.reading = some ⟨6, false, [], 0⟩ ∧ up.path.state = .idle :=
  ⟨⟨up_acceptsTag 6, up_isNext⟩, by decide, by decide, ⟨rfl, ⟨_, _, _, rfl⟩, fun _ => rfl⟩,
   ⟨rfl, fun o => by cases o <;> rfl⟩, rfl, rfl⟩

theorem wit_AlertsAreClearedByMask : up.acceptsTag 9 ∧ ∀ b, up.isNext b := ⟨up_acceptsTag 9, up_isNext⟩

theorem wit_FlushClosesTheOpenFrame :
    (up.acceptsTag 8 ∧ up.isNext (.command 8 0x08 []) ∧ up.jctl.openFrame = some (openFrame 0x01 1)) ∧
    (let s := { up with jctl := Journal.reset }
     s.acceptsTag 8 ∧ s.isNext (.command 8 0x08 []) ∧ s.jctl.openFrame = none) :=
  ⟨⟨up_acceptsTag 8, .inl rfl, rfl⟩, up_acceptsTag 8, .inl rfl, rfl⟩

theorem wit_MarkClaimsARecord : (up.acceptsTag 1 ∧ ∀ b, up.isNext b) ∧ (0x02 : Byte) ≠ 0x00 ∧ (0x02 : Byte) ≠ 0x01 :=
  ⟨⟨up_acceptsTag 1, up_isNext⟩, by decide⟩

-- Both off, pin freeze alone, command freeze alone.
theorem wit_FreezeAndThawAreTaken :
    (up.acceptsTag 2 ∧ (∀ b, up.isNext b) ∧ up.frzu.commandFreeze = false ∧ up.frzu.filter.level = false) ∧
    (let s := { up with frzu := { up.frzu with filter := ⟨true, 0⟩ } }
     s.acceptsTag 2 ∧ (∀ b, s.isNext b) ∧ s.frzu.commandFreeze = false ∧ s.frzu.filter.level = true) ∧
    (let s := { up with frzu := { up.frzu with commandFreeze := true } }
     s.acceptsTag 2 ∧ (∀ b, s.isNext b) ∧ s.frzu.commandFreeze = true ∧ s.frzu.filter.level = false) :=
  ⟨⟨up_acceptsTag 2, up_isNext, by decide⟩, ⟨up_acceptsTag 2, up_isNext, by decide⟩, up_acceptsTag 2, up_isNext, by decide⟩

theorem wit_RestartEmptiesTheJournal :
    sending.acceptsTag 5 ∧ sending.isNext (.command 5 0x0C []) ∧ sending.bodyMatchesFrame :=
  ⟨⟨.inl rfl, by decide, nofun, rfl⟩, .inl rfl, up_body_sound.2⟩

end Sys2Proof.Tests
end

section
/-! PROOFS. The watch table: what the overlap test and the source test of an entry say (chapter 1). -/

namespace Sys2Proof.Machine

/-! ### The bytes a request covers -/

/-- A request covers from 4 to 64 bytes (R19). -/
theorem coveredCount_bounds (r : Request) : 4 ≤ 4 * r.beatCount ∧ 4 * r.beatCount ≤ 64 := by
  unfold Request.beatCount
  omega

/-- A byte address is one of the first `n` from `a`, going round at the top, exactly when it lies less than `n` past `a`. -/
theorem exists_offset_iff (a x : Addr) {n : Nat} (hn : n ≤ 64) :
    (∃ j < n, a + BitVec.ofNat 32 j = x) ↔ (x - a).toNat < n := by
  constructor
  · rintro ⟨j, hj, rfl⟩
    rw [add_sub_cancel_left, BitVec.toNat_ofNat]
    omega
  · intro h
    exact ⟨(x - a).toNat, h, by rw [BitVec.ofNat_toNat, BitVec.setWidth_eq, add_sub_cancel]⟩

/-- The covered bytes are one run, or two when they wrap: from the address to the top and from 0 to the last byte (R8). -/
theorem offset_lt_iff_runs (r : Request) (x : Addr) :
    (x - r.address).toNat < 4 * r.beatCount ↔
      if r.address ≤ lastCovered r then r.address ≤ x ∧ x ≤ lastCovered r else r.address ≤ x ∨ x ≤ lastCovered r := by
  obtain ⟨hleast, hmost⟩ := coveredCount_bounds r
  unfold lastCovered
  generalize 4 * r.beatCount = n at hleast hmost
  split <;> bv_omega

/-- The covered bytes of a request that does not wrap end at or above its address. -/
theorem address_le_lastCovered (r : Request) (h : r.address.toNat + 4 * r.beatCount ≤ 2 ^ 32) :
    r.address ≤ lastCovered r := by
  have hleast := (coveredCount_bounds r).1
  unfold lastCovered
  bv_omega

/-! ### The overlap test (R8) -/

/-- The overlap test finds a byte of the window in one of the runs. -/
theorem windowOverlaps_iff_runs (base limit : Addr) (r : Request) (h : base ≤ limit) :
    windowOverlaps base limit r = true ↔ ∃ x, (base ≤ x ∧ x ≤ limit) ∧
      if r.address ≤ lastCovered r then r.address ≤ x ∧ x ≤ lastCovered r else r.address ≤ x ∨ x ≤ lastCovered r := by
  unfold windowOverlaps
  split
  next hrun =>
    simp only [Bool.and_eq_true, decide_eq_true_eq]
    constructor
    · rintro ⟨hfirst, hlast⟩
      obtain hle | hle := BitVec.le_total base r.address
      · exact ⟨r.address, ⟨hle, hfirst⟩, BitVec.le_refl _, hrun⟩
      · exact ⟨base, ⟨BitVec.le_refl _, h⟩, hle, hlast⟩
    · rintro ⟨x, ⟨hbase, hlimit⟩, hfirst, hlast⟩
      exact ⟨BitVec.le_trans hfirst hlimit, BitVec.le_trans hbase hlast⟩
  next =>
    simp only [Bool.or_eq_true, decide_eq_true_eq]
    constructor
    · rintro (hfirst | hlast)
      · exact ⟨limit, ⟨h, BitVec.le_refl _⟩, .inl hfirst⟩
      · exact ⟨base, ⟨BitVec.le_refl _, h⟩, .inr hlast⟩
    · rintro ⟨x, ⟨hbase, hlimit⟩, hfirst | hlast⟩
      · exact .inl (BitVec.le_trans hfirst hlimit)
      · exact .inr (BitVec.le_trans hbase hlast)

/-- The overlap test holds exactly when the window and the covered bytes share a byte address. -/
theorem windowOverlaps_iff_common (base limit : Addr) (r : Request) (h : base ≤ limit) :
    windowOverlaps base limit r = true ↔
      ∃ j < 4 * r.beatCount, base ≤ r.address + BitVec.ofNat 32 j ∧ r.address + BitVec.ofNat 32 j ≤ limit := by
  have hcovered (x : Addr) := exists_offset_iff r.address x (coveredCount_bounds r).2
  simp only [windowOverlaps_iff_runs base limit r h, ← offset_lt_iff_runs, ← hcovered]
  constructor
  · rintro ⟨_, hx, j, hj, rfl⟩
    exact ⟨j, hj, hx⟩
  · rintro ⟨j, hj, hx⟩
    exact ⟨_, hx, j, hj, rfl⟩

/-- For covered bytes in one run the overlap test compares the two ends alone. -/
theorem windowOverlaps_of_run (base limit : Addr) (r : Request) (h : r.address ≤ lastCovered r) :
    windowOverlaps base limit r = true ↔ r.address ≤ limit ∧ base ≤ lastCovered r := by
  simp [windowOverlaps, h]

/-- Settles O16: the covered bytes are one run or two, and a window that is not empty meets a run exactly as the test says. -/
theorem windowOverlapsOnCommonByte : Obligations.WindowOverlapsOnCommonByte :=
  fun base limit r h => ⟨windowOverlaps_iff_common base limit r h,
    fun hr => windowOverlaps_of_run base limit r (address_le_lastCovered r hr), fun _ => rfl⟩

/-! ### The source test (R3) -/

/-- The source test compares the bits that the mask names. -/
theorem sourceMatches_iff (value mask source : BitVec 4) :
    sourceMatches value mask source = true ↔ ∀ i < 4, mask.getLsbD i = true → source.getLsbD i = value.getLsbD i := by
  rw [sourceMatches, beq_iff_eq]
  constructor
  · intro h i _ hmask
    simpa [hmask] using congrArg (·.getLsbD i) h
  · intro h
    refine BitVec.eq_of_getLsbD_eq fun i hi => ?_
    cases hmask : mask.getLsbD i with
    | false => simp [hmask]
    | true => simp [hmask, h i hi hmask]

/-- A mask of 0 names no bit, so every source matches. -/
@[simp] theorem sourceMatches_mask_zero (value source : BitVec 4) : sourceMatches value 0 source = true :=
  (sourceMatches_iff value 0 source).2 (by simp)

/-- A mask of 15 names every bit, so only the source equal to the value matches. -/
theorem sourceMatches_mask_all (value source : BitVec 4) : sourceMatches value 15 source = true ↔ source = value := by
  have hall : (15 : BitVec 4) = BitVec.allOnes 4 := rfl
  rw [sourceMatches, beq_iff_eq, hall, BitVec.and_allOnes, BitVec.and_allOnes]

/-- Values that agree in the bits that the mask names are matched by the same sources. -/
theorem sourceMatches_congr (value other mask source : BitVec 4)
    (h : ∀ i < 4, mask.getLsbD i = true → value.getLsbD i = other.getLsbD i) :
    sourceMatches value mask source = sourceMatches other mask source := by
  rw [Bool.eq_iff_iff, sourceMatches_iff, sourceMatches_iff]
  exact forall₃_congr fun i hi hmask => by rw [h i hi hmask]

/-! ### The source byte as written and as returned (Table 6-16) -/

/-- A byte is its high half before its low half. -/
theorem halves_append (b : Byte) : b.extractLsb' 4 4 ++ b.extractLsb' 0 4 = b := by
  rw [BitVec.extractLsb'_append_extractLsb'_eq_extractLsb' (by rfl)]
  exact BitVec.extractLsb'_eq_self

/-- SET_ENTRY stores the source value and mask as written, whatever the mask. -/
theorem entryOfArgs_source (args : List Byte) (e : WatchEntry) (h : entryOfArgs args = some e) :
    e.sourceValue ++ e.sourceMask = argByte args 11 := by
  simp only [entryOfArgs, Option.bind_eq_bind, Option.bind_eq_some_iff, Option.some.injEq] at h
  obtain ⟨valid, -, kinds, -, writeForm, -, readForm, -, lossPolicy, -, freezable, -, refusal, -, closeAfter, -, rfl⟩ := h
  exact halves_append _

/-- GET_ENTRY returns the source value and mask in byte 11 of its data. -/
theorem entryData_source (k : Byte) (e : WatchEntry) : (entryData k e)[11]? = some (e.sourceValue ++ e.sourceMask) := rfl

/-- Settles O17, from the test bit by bit and from what byte 11 stores and returns. -/
theorem sourceMatchComparesMaskedBits : Obligations.SourceMatchComparesMaskedBits :=
  ⟨sourceMatches_iff, fun value source => ⟨sourceMatches_mask_zero value source, sourceMatches_mask_all value source⟩,
    sourceMatches_congr, fun args e k h => by rw [entryData_source, entryOfArgs_source args e h]⟩

end Sys2Proof.Machine
end

section
/-! PROOFS. Claims: what the close option of a claim adds to what the claim does without it (section 4.3). -/

namespace Sys2Proof.Machine

/-! ### Closing (R72) -/

/-- With a frame OPEN, closing makes it the newest CLOSED frame. -/
theorem Journal.closeOpen_some (cause : CloseCause) {j : Journal} {f : OpenFrame} (h : j.openFrame = some f) :
    j.closeOpen cause = { j with
      frames := j.frames ++ [closedFrame f cause], openFrame := none, idleTimer := none
      framesClosed := satInc j.framesClosed } := by
  simp only [Journal.closeOpen, h]

/-- Without a close option nothing is closed. -/
@[simp] theorem Journal.applyCloseOption_none (j : Journal) : j.applyCloseOption .none = j := rfl

/-- A close option closes the OPEN frame with the cause that it names (R66 point 8). -/
theorem Journal.applyCloseOption_asked {close : CloseOption} (j : Journal) (h : close ≠ .none) :
    j.applyCloseOption close = j.closeOpen (if close = .entry then .entry else .mark) := by
  cases close with
  | none => exact absurd rfl h
  | entry => rfl
  | mark => rfl

/-! ### The append (R66) -/

/-- The record placed last is the claimed one: a LOSS record goes before it. -/
theorem Journal.placedRecords_getLast? (now : BitVec 32) (body : RecordBody) (j : Journal) :
    (j.placedRecords now body).getLast? = some ⟨body, BitVec.ofNat 16 (j.frameForAppend now).age⟩ :=
  List.getLast?_concat

/-- After an append the claimed record is the newest of the OPEN frame. -/
theorem Journal.append_holds_record (now : BitVec 32) (body : RecordBody) (j : Journal) :
    ∃ f, (j.append now body).openFrame = some f ∧ ∃ o, f.records.getLast? = some ⟨body, o⟩ :=
  ⟨_, (Journal.append_open now body j).1, _, by
    rw [List.getLast?_append, Journal.placedRecords_getLast?, Option.some_or]⟩

/-! ### The claim with and without its close option (R68) -/

section
variable (now : BitVec 32) {c : Claim} {j : Journal}

/-- With room after the test of R64 the claim is appended, and its close option applied. -/
theorem Journal.take_of_hasRoom (h : (j.closeIfUnfit (j.needed c.body)).hasRoom (j.needed c.body) = true) :
    j.take now c =
      (((j.closeIfUnfit (j.needed c.body)).append now c.body).applyCloseOption c.close, .appended) := by
  obtain ⟨-, htake⟩ | ⟨hfull, -⟩ | ⟨hfull, -⟩ := Journal.take_cases now c j
  · exact htake
  all_goals exact absurd h (by simp [hfull])

/-- Without room after the test of R64 the answer is NO-SPACE, whatever the close option. -/
theorem Journal.take_of_full (close : CloseOption)
    (h : (j.closeIfUnfit (j.needed c.body)).hasRoom (j.needed c.body) = false) :
    (j.take now c).2 = .noSpace ∧ j.take now { c with close } = j.take now c := by
  cases hpolicy : c.policy <;> simp [Journal.take, h, hpolicy]

end

/-- What a close option adds: it is applied to the journal after the append, and a claim answered NO-SPACE does what it would
without the option. -/
theorem Journal.take_withoutOption_cases (now : BitVec 32) (c : Claim) (j : Journal) :
    (∃ k : Journal, j.take now { c with close := .none } = (k.append now c.body, .appended) ∧
      j.take now c = ((k.append now c.body).applyCloseOption c.close, .appended)) ∨
    ((j.take now { c with close := .none }).2 = .noSpace ∧ j.take now c = j.take now { c with close := .none }) := by
  cases hroom : (j.closeIfUnfit (j.needed c.body)).hasRoom (j.needed c.body) with
  | true => exact .inl ⟨_, Journal.take_of_hasRoom now (c := { c with close := .none }) hroom,
      Journal.take_of_hasRoom now hroom⟩
  | false => exact .inr (Journal.take_of_full now (c := { c with close := .none }) c.close hroom)

/-- Settles O23: the option is applied to the journal after the append, whose OPEN frame holds the record as its newest. -/
theorem closeOptionClosesTheFrame : Obligations.CloseOptionClosesTheFrame := by
  intro now c j hclose
  obtain ⟨k, hplain, htake⟩ | ⟨hanswer, htake⟩ := Journal.take_withoutOption_cases now c j
  · obtain ⟨f, hopen, hlast⟩ := Journal.append_holds_record now c.body k
    simp only [hplain, htake]
    refine ⟨trivial, nofun, fun _ => ⟨f, hopen, hlast, ?_⟩⟩
    rw [Journal.applyCloseOption_asked _ hclose, Journal.closeOpen_some _ hopen]
    rfl
  · simp only [htake, hanswer]
    exact ⟨trivial, fun _ => trivial, nofun⟩

end Sys2Proof.Machine
end

section
/-! PROOFS. What the predicate `State.Sound` does not keep: a body in progress that the transmitter should have aborted
(section 7.6). -/

namespace Sys2Proof.Machine

/-! ### A sound state that a step leaves unsound (R127) -/

/-- A frame being sent, of one FREEZE record. -/
def unabortedFrame : Frame :=
  { seq := 0, state := .sending, baseTime := 0, records := [⟨.freeze true .pin, 0⟩], closeCause := .limit
    sentBefore := false, retryCount := 0 }

/-- DOWN with the entry to it taken by the transmitter and not by the delivery controller, and a JOURNAL body still in
progress, as it cannot be after the transmitter's abort: no part of `State.Sound` shuts it out. An ACK is next. -/
def unabortedState : State :=
  { State.reset with
    jctl := { Journal.reset with frames := [unabortedFrame], nextSeq := 1 }
    ltx := { LinkTransmitter.reset with body := some ⟨.journal 0, [0x4A]⟩ }
    wires := { Wires.reset with falling := { FallMarks.none with dlv := true } }
    pending := [.ack 0] }

/-- The one frame of the journal is sound. -/
theorem unabortedState_journal_sound : unabortedState.jctl.sound := by
  refine ⟨by decide, by decide, ?_, ?_, ?_, nofun, fun _ => rfl⟩
  · simp [unabortedState, unabortedFrame, runsUpTo, Journal.heldSeqs, Journal.reset]
  · simp [unabortedState, unabortedFrame, statesInOrder]
  · simp [unabortedState, unabortedFrame, frameSound, bytesOf, recordLength]

/-- The windows of the entries after reset are aligned and not empty. -/
theorem State.afterReset_windowsSound (p : Pins) : (State.afterReset p).windowsSound := by
  intro e he
  have hentries : (State.afterReset p).wtab.entries.toList = List.replicate 16 WatchEntry.reset := rfl
  rw [hentries] at he
  obtain rfl := List.eq_of_mem_replicate he
  decide

/-- Every part of `State.Sound` holds. -/
theorem unabortedState_sound : unabortedState.Sound where
  params   := by decide
  windows  := State.afterReset_windowsSound lowPins
  journal  := unabortedState_journal_sound
  retried  := by decide
  quiet    := by decide
  delivery := by decide
  body     := (by decide : unabortedState.jctl.sendingSeq = some 0 ∧ unabortedState.wires.sendEnd = false)
  line     := (by decide : unabortedState.ltx.bytesSent ≤ 1 + 2 ∧ unabortedState.ltx.abortBytes = [])
  clock    := by decide
  receiver := ⟨rfl, rfl⟩
  timers   := ⟨rfl, rfl, fun _ => rfl⟩
  entry    := by decide
  settle   := by decide
  commands := ⟨by decide, rfl⟩
  tracking := ⟨by decide, by decide, rfl⟩
  ports    := by decide
  stall    := rfl
  age      := nofun

/-- The ACK has the delivery controller take the entry to DOWN: the frame returns to CLOSED, its body stays in progress. -/
theorem step_unabortedState :
    ∃ t, step unabortedState = .next t ∧ t.ltx.body = some ⟨.journal 0, [0x4A]⟩ ∧ t.jctl.sendingSeq = none :=
  ⟨_, rfl, rfl, by decide⟩

/-- Refutes O7: in `unabortedState` everything of `State.Sound` holds, and an ACK takes the frame out from under its body. -/
theorem not_soundIsKept : ¬ Obligations.SoundIsKept := by
  intro hkept
  obtain ⟨t, hstep, hbody, hseq⟩ := step_unabortedState
  have hmatch : t.bodyMatchesFrame := (hkept _ t unabortedState_sound hstep).body
  simp only [State.bodyMatchesFrame, hbody, hseq] at hmatch
  exact nomatch hmatch.1

end Sys2Proof.Machine
end

section
/-! PROOFS. The watch table: which entry governs, and an entry as bytes (chapter 1, Table 6-16). -/

namespace Sys2Proof.Machine

/-! ### The governing entry (R1, R7) -/

/-- The kinds admitted, value by value. -/
theorem kindAdmitted_iff (k : Kinds) (r : ReqKind) :
    kindAdmitted k r = true ↔ k = .both ∨ (k = .writes ∧ r = .write) ∨ (k = .reads ∧ r = .read) := by
  cases k <;> cases r <;> simp [kindAdmitted]

/-- The four conditions of R7. -/
theorem WatchEntry.qualifies_iff (e : WatchEntry) (r : Request) :
    e.qualifies r = true ↔ e.valid = true ∧ windowOverlaps e.base e.limit r = true ∧
      (e.kinds = .both ∨ (e.kinds = .writes ∧ r.kind = .write) ∨ (e.kinds = .reads ∧ r.kind = .read)) ∧
      sourceMatches e.sourceValue e.sourceMask r.source = true := by
  simp only [WatchEntry.qualifies, Bool.and_eq_true, kindAdmitted_iff, and_assoc]

/-- A place of the list with its index is that place of the table. -/
theorem WatchTable.zipIdx_getElem? (t : WatchTable) (i : Nat) :
    t.entries.toList.zipIdx[i]? = t.entries[i]?.map fun e => (e, i) := by
  simp [List.getElem?_zipIdx]

/-- The governing entry is the first of the table that qualifies. -/
theorem WatchTable.governing_eq_some_iff (t : WatchTable) (r : Request) (e : WatchEntry) (k : Nat) :
    t.governing r = some (e, k) ↔ t.entries[k]? = some e ∧ e.qualifies r = true ∧
      ∀ (j : Nat) (d : WatchEntry), j < k → t.entries[j]? = some d → d.qualifies r = false := by
  rw [WatchTable.governing, List.find?_eq_some_iff_getElem]
  constructor
  · rintro ⟨hq, i, hi, hei, hbefore⟩
    have hget : t.entries.toList.zipIdx[i]? = some (e, k) := List.getElem?_eq_some_iff.2 ⟨hi, hei⟩
    simp only [t.zipIdx_getElem?, Option.map_eq_some_iff, Prod.mk.injEq] at hget
    obtain ⟨d, hd, rfl, rfl⟩ := hget
    refine ⟨hd, hq, fun j d' hj hd' => ?_⟩
    have hj' : t.entries.toList.zipIdx[j]? = some (d', j) := by rw [t.zipIdx_getElem?, hd']; rfl
    obtain ⟨hlt, hget⟩ := List.getElem?_eq_some_iff.1 hj'
    simpa [hget] using hbefore j hj
  · rintro ⟨hk, hq, hbefore⟩
    have hget : t.entries.toList.zipIdx[k]? = some (e, k) := by rw [t.zipIdx_getElem?, hk]; rfl
    obtain ⟨hlt, heq⟩ := List.getElem?_eq_some_iff.1 hget
    refine ⟨hq, k, hlt, heq, fun j hj => ?_⟩
    have hj16 : j < 16 := by simp at hlt; omega
    have hget' : t.entries[j]? = some t.entries[j] := by simp [hj16]
    simpa using hbefore j _ hj hget'

/-- No entry governs exactly when none qualifies. -/
theorem WatchTable.governing_eq_none_iff (t : WatchTable) (r : Request) :
    t.governing r = none ↔ ∀ (j : Nat) (d : WatchEntry), t.entries[j]? = some d → d.qualifies r = false := by
  rw [WatchTable.governing, List.find?_eq_none]
  constructor
  · intro h j d hd
    have hmem : (d, j) ∈ t.entries.toList.zipIdx :=
      List.mem_of_getElem? (i := j) (by rw [t.zipIdx_getElem?, hd]; rfl)
    simpa using h _ hmem
  · rintro h ⟨d, j⟩ hmem
    obtain ⟨i, hi⟩ := List.mem_iff_getElem?.1 hmem
    simp only [t.zipIdx_getElem?, Option.map_eq_some_iff, Prod.mk.injEq] at hi
    obtain ⟨d', hd, rfl, rfl⟩ := hi
    simpa using h _ _ hd

/-- Settles O18, from the search through the table in order. -/
theorem lowestQualifyingEntryGoverns : Obligations.LowestQualifyingEntryGoverns := by
  intro t r meets
  have hmeets (e : WatchEntry) : e.qualifies r = false ↔ ¬ meets e := by
    rw [← Bool.not_eq_true, WatchEntry.qualifies_iff]
  refine ⟨fun e k => ?_, ?_⟩
  · simp only [t.governing_eq_some_iff, hmeets, WatchEntry.qualifies_iff]
    rfl
  · simp only [t.governing_eq_none_iff, hmeets]

end Sys2Proof.Machine
end

section
/-! PROOFS. Watch entries as the bytes of SET_ENTRY and GET_ENTRY (Table 6-16), and the checks of Table 1-7. -/

namespace Sys2Proof.Machine

/-! ### Multi-byte fields -/

/-- The four bytes of a word that was put together from four bytes. -/
theorem be32_append (a b c d : Byte) : be32 ((a ++ b : BitVec 16) ++ (c ++ d : BitVec 16)) = [a, b, c, d] := by
  have ha : ((a ++ b) ++ (c ++ d)).extractLsb' 24 8 = a :=
    (BitVec.extractLsb'_append_eq_of_le (by omega)).trans BitVec.extractLsb'_append_eq_left
  have hb : ((a ++ b) ++ (c ++ d)).extractLsb' 16 8 = b :=
    (BitVec.extractLsb'_append_eq_of_le (by omega)).trans BitVec.extractLsb'_append_eq_right
  have hc : ((a ++ b) ++ (c ++ d)).extractLsb' 8 8 = c :=
    (BitVec.extractLsb'_append_eq_of_add_le (by omega)).trans BitVec.extractLsb'_append_eq_left
  have hd : ((a ++ b) ++ (c ++ d)).extractLsb' 0 8 = d :=
    (BitVec.extractLsb'_append_eq_of_add_le (by omega)).trans BitVec.extractLsb'_append_eq_right
  exact congrArg₂ _ ha (congrArg₂ _ hb (congrArg₂ _ hc (congrArg₂ _ hd rfl)))

/-- The two bytes of a half word that was put together from two bytes. -/
theorem be16_append (a b : Byte) : be16 (a ++ b : BitVec 16) = [a, b] :=
  congrArg₂ _ BitVec.extractLsb'_append_eq_left (congrArg₂ _ BitVec.extractLsb'_append_eq_right rfl)

/-- A word put together again from its four bytes. -/
theorem word_of_bytes (x : BitVec 32) :
    ((x.extractLsb' 24 8 ++ x.extractLsb' 16 8 : BitVec 16) ++ (x.extractLsb' 8 8 ++ x.extractLsb' 0 8 : BitVec 16)) = x := by
  ext i hi
  simp only [BitVec.getElem_append, BitVec.getElem_extractLsb']
  split
  · split <;> rw [BitVec.getLsbD_eq_getElem (by omega)] <;> congr 1 <;> omega
  · split <;> rw [BitVec.getLsbD_eq_getElem (by omega)] <;> congr 1 <;> omega

/-! ### Coded bytes -/

/-- The byte of kinds. -/
def kindsByte : Kinds → Byte
  | .writes => 0x00
  | .reads  => 0x01
  | .both   => 0x02

/-- The byte of a write form. -/
def writeFormByte : WriteForm → Byte
  | .none    => 0x00
  | .address => 0x01
  | .after   => 0x02
  | .both    => 0x03

/-- The byte of a read form. -/
def readFormByte : ReadForm → Byte
  | .none    => 0x00
  | .address => 0x01

/-- The byte of a loss policy. -/
def lossPolicyByte : LossPolicy → Byte
  | .drop => 0x00
  | .hold => 0x01

/-- The byte of a refusal response. -/
def refuseByte : Refuse → Byte
  | .error  => 0x00
  | .silent => 0x01

/-- GET-ENTRY reply data, field by field. -/
theorem entryData_eq (k : Byte) (e : WatchEntry) :
    entryData k e = [k, flagByte e.valid] ++ be32 e.base ++ be32 e.limit ++
      [kindsByte e.kinds, e.sourceValue ++ e.sourceMask, writeFormByte e.writeForm, readFormByte e.readForm,
       lossPolicyByte e.lossPolicy, flagByte e.freezable, refuseByte e.refusal, flagByte e.closeAfter] ++
      be16 e.hitCount := by
  rcases e with ⟨_, _, _, kinds, _, _, wf, rf, lp, _, re, _, _⟩
  cases kinds <;> cases wf <;> cases rf <;> cases lp <;> cases re <;> rfl

/-- A byte codes a flag exactly when it is that flag's byte. -/
theorem flagOf_eq_some_iff (b : Byte) (v : Bool) : flagOf b = some v ↔ b = flagByte v := by
  unfold flagOf
  split_ifs <;> cases v <;> simp_all [flagByte]

/-- A byte codes kinds exactly when it is their byte. -/
theorem kindsOf_eq_some_iff (b : Byte) (v : Kinds) : kindsOf b = some v ↔ b = kindsByte v := by
  unfold kindsOf
  split_ifs <;> cases v <;> simp_all [kindsByte]

/-- A byte codes a write form exactly when it is its byte. -/
theorem writeFormOf_eq_some_iff (b : Byte) (v : WriteForm) : writeFormOf b = some v ↔ b = writeFormByte v := by
  unfold writeFormOf
  split_ifs <;> cases v <;> simp_all [writeFormByte]

/-- A byte codes a read form exactly when it is its byte. -/
theorem readFormOf_eq_some_iff (b : Byte) (v : ReadForm) : readFormOf b = some v ↔ b = readFormByte v := by
  unfold readFormOf
  split_ifs <;> cases v <;> simp_all [readFormByte]

/-- A byte codes a loss policy exactly when it is its byte. -/
theorem lossPolicyOf_eq_some_iff (b : Byte) (v : LossPolicy) : lossPolicyOf b = some v ↔ b = lossPolicyByte v := by
  unfold lossPolicyOf
  split_ifs <;> cases v <;> simp_all [lossPolicyByte]

/-- A byte codes a refusal response exactly when it is its byte. -/
theorem refuseOf_eq_some_iff (b : Byte) (v : Refuse) : refuseOf b = some v ↔ b = refuseByte v := by
  unfold refuseOf
  split_ifs <;> cases v <;> simp_all [refuseByte]

/-- The arguments code an entry exactly when each of its fields stands in its bytes and its hit count is 0. -/
theorem entryOfArgs_eq_some_iff (args : List Byte) (e : WatchEntry) :
    entryOfArgs args = some e ↔
      argByte args 1 = flagByte e.valid ∧ argWord args 2 = e.base ∧ argWord args 6 = e.limit ∧
      argByte args 10 = kindsByte e.kinds ∧ argByte args 11 = e.sourceValue ++ e.sourceMask ∧
      argByte args 12 = writeFormByte e.writeForm ∧ argByte args 13 = readFormByte e.readForm ∧
      argByte args 14 = lossPolicyByte e.lossPolicy ∧ argByte args 15 = flagByte e.freezable ∧
      argByte args 16 = refuseByte e.refusal ∧ argByte args 17 = flagByte e.closeAfter ∧ e.hitCount = 0 := by
  simp only [entryOfArgs, Option.bind_eq_bind, Option.bind_eq_some_iff, Option.some.injEq, flagOf_eq_some_iff,
    kindsOf_eq_some_iff, writeFormOf_eq_some_iff, readFormOf_eq_some_iff, lossPolicyOf_eq_some_iff, refuseOf_eq_some_iff]
  constructor
  · rintro ⟨_, h1, _, h10, _, h12, _, h13, _, h14, _, h15, _, h16, _, h17, rfl⟩
    exact ⟨h1, rfl, rfl, h10, (halves_append _).symm, h12, h13, h14, h15, h16, h17, rfl⟩
  · rintro ⟨h1, h2, h6, h10, h11, h12, h13, h14, h15, h16, h17, h18⟩
    have hvalue : (e.sourceValue ++ e.sourceMask).extractLsb' 4 4 = e.sourceValue := BitVec.extractLsb'_append_eq_left
    have hmask : (e.sourceValue ++ e.sourceMask).extractLsb' 0 4 = e.sourceMask := BitVec.extractLsb'_append_eq_right
    refine ⟨_, h1, _, h10, _, h12, _, h13, _, h14, _, h15, _, h16, _, h17, ?_⟩
    rw [h2, h6, h11, hvalue, hmask, ← h18]

/-! ### SET_ENTRY (Table 1-7) -/

/-- All that SET_ENTRY can do: the entry replaced whole, or nothing with the first check that fails. -/
theorem WatchTable.setEntry_cases (args : List Byte) (t : WatchTable) :
    (15 < (argByte args 0).toNat ∧ t.setEntry args = (t, .badIndex)) ∨
    ((argByte args 0).toNat ≤ 15 ∧ rangeGood (argWord args 2) (argWord args 6) = false ∧
      t.setEntry args = (t, .badRange)) ∨
    ((argByte args 0).toNat ≤ 15 ∧ rangeGood (argWord args 2) (argWord args 6) = true ∧
      ((entryOfArgs args = none ∧ t.setEntry args = (t, .badValue)) ∨
       ∃ e, entryOfArgs args = some e ∧ t.setEntry args = (t.put (argByte args 0).toNat e, .ok))) := by
  by_cases hi : 15 < (argByte args 0).toNat
  · exact .inl ⟨hi, by simp [WatchTable.setEntry, hi]⟩
  · have hle : (argByte args 0).toNat ≤ 15 := by omega
    cases hr : rangeGood (argWord args 2) (argWord args 6) with
    | false => exact .inr (.inl ⟨hle, rfl, by simp [WatchTable.setEntry, hi, hr]⟩)
    | true =>
      refine .inr (.inr ⟨hle, rfl, ?_⟩)
      cases he : entryOfArgs args with
      | none => exact .inl ⟨rfl, by simp [WatchTable.setEntry, hi, hr, he]⟩
      | some e => exact .inr ⟨e, rfl, by simp [WatchTable.setEntry, hi, hr, he]⟩

/-- Eighteen argument bytes, one by one. -/
theorem args_eq_of_length (args : List Byte) (h : args.length = 18) :
    args = (List.range 18).map (argByte args) := by
  refine List.ext_getElem (by simp [h]) fun i hi _ => ?_
  simp [argByte, List.getD_eq_getElem?_getD, hi]

/-- Settles O19: each field is coded by its bytes, both ways. -/
theorem entryLayoutRoundTrips : Obligations.EntryLayoutRoundTrips := by
  refine ⟨fun args t u hlen hset => ?_, fun k e => ⟨?_, ?_⟩⟩
  · obtain ⟨-, hs⟩ | ⟨-, -, hs⟩ | ⟨hle, -, ⟨-, hs⟩ | ⟨e, he, hs⟩⟩ := t.setEntry_cases args
    · exact absurd (congrArg Prod.snd (hset.symm.trans hs)) nofun
    · exact absurd (congrArg Prod.snd (hset.symm.trans hs)) nofun
    · exact absurd (congrArg Prod.snd (hset.symm.trans hs)) nofun
    obtain rfl : u = t.put (argByte args 0).toNat e := congrArg Prod.fst (hset.symm.trans hs)
    refine ⟨e, ?_, ?_⟩
    · simp [WatchTable.put, Nat.lt_succ_of_le hle]
    · obtain ⟨h1, h2, h6, h10, h11, h12, h13, h14, h15, h16, h17, h18⟩ := (entryOfArgs_eq_some_iff args e).1 he
      rw [entryData_eq, ← h1, ← h2, ← h6, ← h10, ← h11, ← h12, ← h13, ← h14, ← h15, ← h16, ← h17, h18]
      simp only [argWord, argHalf, be32_append]
      conv_rhs => rw [args_eq_of_length args hlen]
      rfl
  · rw [entryData_eq]
    rfl
  · rw [entryOfArgs_eq_some_iff, entryData_eq]
    exact ⟨rfl, word_of_bytes _, word_of_bytes _, rfl, rfl, rfl, rfl, rfl, rfl, rfl, rfl, rfl⟩

end Sys2Proof.Machine
end

section
/-! PROOFS. Records as bytes: their lengths, and that the packed bytes give the records back (section 6.6). -/

namespace Sys2Proof.Machine

/-! ### Lengths (Table 3-9) -/

/-- A beat count is 1 to 16. -/
theorem beatsOf_bounds (b : BitVec 4) : 1 ≤ beatsOf b ∧ beatsOf b ≤ 16 := by
  unfold beatsOf
  omega

/-- A list with a member for each beat has as many members as beats. -/
@[simp] theorem length_perBeat {α : Type} (b : Nat) (d : α) (l : List α) : (perBeat b d l).length = b := by
  simp [perBeat]

/-- One byte for each set of enables. -/
@[simp] theorem length_enableBytes (b : Nat) (l : List (BitVec 4)) : (enableBytes b l).length = b := by
  simp [enableBytes]

/-- Four bytes for each word. -/
@[simp] theorem length_dataBytes (b : Nat) (l : List DataWord) : (dataBytes b l).length = 4 * b := by
  have hword (w : DataWord) : (wordBytes w).length = 4 := rfl
  simp [dataBytes, List.length_flatMap, hword, Nat.mul_comm]

/-- The own fields of a record take all of its length but the four bytes of the common part. -/
theorem length_recordFields (body : RecordBody) : (recordFields body).length + 4 = recordLength body := by
  cases body with
  | write e src b a en d =>
    cases d <;> simp [recordFields, recordLength, be32, writeDataBytes] <;> omega
  | read => rfl
  | refused e src b a en => simp [recordFields, recordLength, be32]; omega
  | failed => rfl
  | mark => rfl
  | freeze => rfl
  | loss => rfl

/-- A record's bytes are as many as its length. -/
theorem length_recordBytes (r : Record) : (recordBytes r).length = recordLength r.body := by
  simp [recordBytes, be16, ← length_recordFields]

/-- A record is 6 to 154 bytes long. -/
theorem recordLength_bounds (body : RecordBody) : 6 ≤ recordLength body ∧ recordLength body ≤ 154 := by
  rcases body with ⟨_, _, b, _, _, d⟩ | _ | ⟨_, _, b, _, _⟩ | _ | _ | _ | _
  case write =>
    have hb := beatsOf_bounds b
    cases d <;> simp only [recordLength] <;> omega
  case refused =>
    have hb := beatsOf_bounds b
    simp only [recordLength]
    omega
  all_goals simp [recordLength]

/-- The second byte of a record is its length. -/
theorem recordBytes_second (r : Record) : (recordBytes r)[1]? = some (BitVec.ofNat 8 (recordLength r.body)) := rfl

/-- The byte that holds a length holds it whole. -/
theorem toNat_lengthByte (body : RecordBody) : (BitVec.ofNat 8 (recordLength body)).toNat = recordLength body := by
  have h := recordLength_bounds body
  rw [BitVec.toNat_ofNat, Nat.mod_eq_of_lt (by omega)]

/-- Settles O20, from the lengths of the fields. -/
theorem recordBytesMatchLength : Obligations.RecordBytesMatchLength := fun r =>
  ⟨length_recordBytes r, (recordLength_bounds r.body).1, (recordLength_bounds r.body).2, by
    rw [recordBytes_second, Option.map_some, toNat_lengthByte]⟩

/-! ### Reading back -/

/-- The two parts of a value put together from them. -/
theorem append_inj_bits {n m : Nat} {a c : BitVec n} {b d : BitVec m} (h : a ++ b = c ++ d) : a = c ∧ b = d := by
  constructor
  · simpa only [BitVec.extractLsb'_append_eq_left] using congrArg (BitVec.extractLsb' m n) h
  · simpa only [BitVec.extractLsb'_append_eq_right] using congrArg (BitVec.extractLsb' 0 m) h

/-- Four bytes give their word back. -/
theorem be32_inj {x y : BitVec 32} (h : be32 x = be32 y) : x = y := by
  simp only [be32, List.cons.injEq, and_true] at h
  obtain ⟨h3, h2, h1, h0⟩ := h
  rw [← word_of_bytes x, ← word_of_bytes y, h3, h2, h1, h0]

/-- Two bytes give their half word back. -/
theorem be16_inj {x y : BitVec 16} (h : be16 x = be16 y) : x = y := by
  simp only [be16, List.cons.injEq, and_true] at h
  have hx (z : BitVec 16) : z.extractLsb' 8 8 ++ z.extractLsb' 0 8 = z := by
    rw [BitVec.extractLsb'_append_extractLsb'_eq_extractLsb' (by rfl)]
    exact BitVec.extractLsb'_eq_self
  rw [← hx x, ← hx y, h.1, h.2]

/-- A list that has one member for each beat is that list. -/
theorem perBeat_eq_self {α : Type} (b : Nat) (d : α) (l : List α) (h : l.length = b) : perBeat b d l = l := by
  refine List.ext_getElem (by simp [h]) fun i _ hi => ?_
  simp [perBeat, List.getD_eq_getElem?_getD, hi]

/-- The bytes of the enables give them back. -/
theorem enableBytes_inj {b : Nat} {l m : List (BitVec 4)} (hl : l.length = b) (hm : m.length = b)
    (h : enableBytes b l = enableBytes b m) : l = m := by
  rw [enableBytes, enableBytes, perBeat_eq_self b _ l hl, perBeat_eq_self b _ m hm] at h
  exact (List.map_injective_iff.2 fun _ _ he => (append_inj_bits he).2) h

/-- The bytes of words give them back. -/
theorem flatMap_wordBytes_inj {l m : List DataWord} (h : l.flatMap wordBytes = m.flatMap wordBytes) : l = m := by
  induction l generalizing m with
  | nil =>
    cases m with
    | nil => rfl
    | cons w m => exact absurd h (by simp [wordBytes])
  | cons w l ih =>
    cases m with
    | nil => exact absurd h (by simp [wordBytes])
    | cons v m =>
      obtain ⟨hw, hl⟩ := List.append_inj h rfl
      rw [ih hl]
      rcases w with ⟨_, _, _, _⟩
      rcases v with ⟨_, _, _, _⟩
      simp_all [wordBytes]

/-- The data bytes give the words back. -/
theorem dataBytes_inj {b : Nat} {l m : List DataWord} (hl : l.length = b) (hm : m.length = b)
    (h : dataBytes b l = dataBytes b m) : l = m := by
  rw [dataBytes, dataBytes, perBeat_eq_self b _ l hl, perBeat_eq_self b _ m hm] at h
  exact flatMap_wordBytes_inj h

/-- WRITE data of which the words are one for each beat. -/
def WriteData.complete (b : Nat) : WriteData → Prop
  | .address            => True
  | .after words        => words.length = b
  | .both words before  => words.length = b ∧ before.length = b
  | .bothFailed words   => words.length = b

/-- The form bits and the data bytes give the WRITE data back. -/
theorem writeData_inj {b : Nat} {c d : WriteData} (hc : c.complete b) (hd : d.complete b)
    (hform : writeFormBits c = writeFormBits d) (h : writeDataBytes b c = writeDataBytes b d) : c = d := by
  cases c <;> cases d
  case address.address => rfl
  case after.after => rw [dataBytes_inj hc hd h]
  case both.both =>
    obtain ⟨hafter, hbefore⟩ := List.append_inj h (by simp)
    rw [dataBytes_inj hc.1 hd.1 hafter, dataBytes_inj hc.2 hd.2 hbefore]
  case bothFailed.bothFailed => rw [dataBytes_inj hc hd h]
  all_goals exact absurd hform (by simp [writeFormBits])

/-- What completeness says of a WRITE record. -/
theorem complete_write_iff (e src b : BitVec 4) (a : Addr) (en : List (BitVec 4)) (d : WriteData) :
    (RecordBody.write e src b a en d).complete = true ↔ en.length = beatsOf b ∧ d.complete (beatsOf b) := by
  cases d <;> simp [RecordBody.complete, WriteData.complete]

/-- The origin that a byte of Table 6-14 stands for. -/
def markOriginOf (b : Byte) : MarkOrigin :=
  if b = 0x00 then .pin .m0 else if b = 0x01 then .pin .m1 else if b = 0x02 then .pin .m2
  else if b = 0x03 then .pin .m3 else .recorder

/-- It is the one of which that is the byte. -/
theorem markOriginOf_markOriginByte (o : MarkOrigin) : markOriginOf (markOriginByte o) = o := by
  rcases o with (_ | _ | _ | _) | _ <;> rfl

/-- The origin byte gives the origin back. -/
theorem markOriginByte_inj {o p : MarkOrigin} (h : markOriginByte o = markOriginByte p) : o = p := by
  rw [← markOriginOf_markOriginByte o, h, markOriginOf_markOriginByte]

/-- The own fields of a FREEZE record give the new state and the cause back. -/
theorem freezeFields_inj {on on' : Bool} {cause cause' : FreezeCause}
    (h : recordFields (.freeze on cause) = recordFields (.freeze on' cause')) : on = on' ∧ cause = cause' := by
  obtain ⟨hon, hcause⟩ : (recordFields (.freeze on cause))[0]? = (recordFields (.freeze on' cause'))[0]? ∧
      (recordFields (.freeze on cause))[1]? = (recordFields (.freeze on' cause'))[1]? := by
    rw [h]
    exact ⟨rfl, rfl⟩
  constructor
  · cases on <;> cases on' <;> simp_all [recordFields]
  · cases cause <;> cases cause' <;> simp_all [recordFields]

/-- The kind and the own fields of a complete record give its contents back. -/
theorem recordFields_inj {x y : RecordBody} (hx : x.complete = true) (hy : y.complete = true)
    (hkind : recordKind x = recordKind y) (h : recordFields x = recordFields y) : x = y := by
  cases x <;> cases y
  case write.write e src b a en d e' src' b' a' en' d' =>
    obtain ⟨hen, hd⟩ := (complete_write_iff ..).1 hx
    obtain ⟨hen', hd'⟩ := (complete_write_iff ..).1 hy
    simp only [recordFields, List.cons_append, List.nil_append, List.cons.injEq, List.append_assoc] at h
    obtain ⟨hsource, hbeats, h⟩ := h
    obtain ⟨rfl, rfl⟩ := append_inj_bits hsource
    obtain ⟨rfl, hform⟩ := append_inj_bits hbeats
    obtain ⟨ha, h⟩ := List.append_inj h rfl
    obtain ⟨hen'', hdata⟩ := List.append_inj h (by simp)
    rw [be32_inj ha, enableBytes_inj hen hen' hen'', writeData_inj hd hd' hform hdata]
  case read.read =>
    simp only [recordFields, List.cons_append, List.nil_append, List.cons.injEq] at h
    obtain ⟨hsource, hbeats, ha⟩ := h
    obtain ⟨rfl, rfl⟩ := append_inj_bits hsource
    obtain ⟨rfl, -⟩ := append_inj_bits hbeats
    rw [be32_inj ha]
  case refused.refused =>
    simp only [RecordBody.complete, beq_iff_eq] at hx hy
    simp only [recordFields, List.cons_append, List.nil_append, List.cons.injEq] at h
    obtain ⟨hsource, hbeats, h⟩ := h
    obtain ⟨rfl, rfl⟩ := append_inj_bits hsource
    obtain ⟨rfl, -⟩ := append_inj_bits hbeats
    obtain ⟨ha, hen⟩ := List.append_inj h rfl
    rw [be32_inj ha, enableBytes_inj hx hy hen]
  case failed.failed =>
    simp only [recordFields, List.cons_append, List.nil_append, List.cons.injEq] at h
    obtain ⟨hsource, hbeats, ha⟩ := h
    obtain ⟨rfl, rfl⟩ := append_inj_bits hsource
    obtain ⟨rfl, -⟩ := append_inj_bits hbeats
    rw [be32_inj ha]
  case mark.mark =>
    simp only [recordFields, List.cons.injEq] at h
    rw [markOriginByte_inj h.1, be16_inj h.2]
  case freeze.freeze on cause on' cause' =>
    obtain ⟨rfl, rfl⟩ := freezeFields_inj h
    rfl
  case loss.loss => rw [be32_inj h]
  all_goals exact absurd hkind (by simp [recordKind])

/-- The bytes of complete records, whatever follows them, give the first record and what follows it back. -/
theorem recordBytes_append_inj {r q : Record} {x y : List Byte} (hr : r.body.complete = true) (hq : q.body.complete = true)
    (h : recordBytes r ++ x = recordBytes q ++ y) : r = q ∧ x = y := by
  have hlen : (recordBytes r).length = (recordBytes q).length := by
    have hbyte : BitVec.ofNat 8 (recordLength r.body) = BitVec.ofNat 8 (recordLength q.body) := by
      have := congrArg (·[1]?) h
      simpa [recordBytes] using this
    rw [length_recordBytes, length_recordBytes, ← toNat_lengthByte r.body, hbyte, toNat_lengthByte]
  obtain ⟨hbytes, hrest⟩ := List.append_inj h hlen
  simp only [recordBytes, List.cons_append, List.nil_append, List.cons.injEq] at hbytes
  obtain ⟨hkind, -, hbytes⟩ := hbytes
  obtain ⟨hoffset, hfields⟩ := List.append_inj hbytes rfl
  exact ⟨congrArg₂ Record.mk (recordFields_inj hr hq hkind hfields) (be16_inj hoffset), hrest⟩

/-- Settles O21, record by record. -/
theorem journalBytesDetermineRecords : Obligations.JournalBytesDetermineRecords := by
  intro l
  have hne (r : Record) (x : List Byte) : recordBytes r ++ x ≠ [] := by simp [recordBytes]
  induction l with
  | nil =>
    rintro (_ | ⟨q, m⟩) - - h
    · rfl
    · exact absurd h.symm (hne q _)
  | cons r l ih =>
    rintro (_ | ⟨q, m⟩) hl hm h
    · exact absurd h (hne r _)
    · obtain ⟨rfl, hrest⟩ := recordBytes_append_inj (hl r List.mem_cons_self) (hm q List.mem_cons_self) h
      rw [ih m (fun x hx => hl x (List.mem_cons_of_mem _ hx)) (fun x hx => hm x (List.mem_cons_of_mem _ hx)) hrest]

end Sys2Proof.Machine
end

section
/-! PROOFS. The machine's own form, cold reset, and how claims are decided (chapters 4 and 5). -/

namespace Sys2Proof.Machine

/-! ### The machine and cold reset -/

/-- Settles O1: the front of the queue is what `step` looks at. -/
theorem stepRunsFrontOfQueue : Obligations.StepRunsFrontOfQueue := by
  intro c rest s h
  simp only [step, h]
  rfl

/-- Settles O5: each block's value after reset is the literal. -/
theorem coldResetValues : Obligations.ColdResetValues := fun _ _ => rfl

/-- An empty journal is sound. -/
theorem Journal.reset_sound : Journal.reset.sound :=
  ⟨by decide, by decide, trivial, trivial, nofun, nofun, fun _ => rfl⟩

/-- The state after cold reset is sound. -/
theorem State.afterReset_sound (p : Pins) : (State.afterReset p).Sound where
  params   := (by decide : (State.afterReset lowPins).paramsInRange)
  windows  := State.afterReset_windowsSound p
  journal  := Journal.reset_sound
  retried  := nofun
  quiet    := fun _ => ⟨fun _ => ⟨rfl, rfl, rfl⟩, fun _ => rfl⟩
  delivery := (by decide : (State.afterReset lowPins).deliverySound)
  body     := fun _ _ => rfl
  line     := ⟨rfl, rfl, rfl⟩
  clock    := (by decide : (State.afterReset lowPins).clockSound)
  receiver := ⟨rfl, rfl⟩
  timers   := ⟨rfl, rfl, fun _ => rfl⟩
  entry    := (by decide : (State.afterReset lowPins).entrySound)
  settle   := (by decide : (State.afterReset lowPins).settleSound)
  commands := ⟨Nat.zero_le _, rfl⟩
  tracking := ⟨Nat.zero_le _, nofun, rfl⟩
  ports    := (by decide : (State.afterReset lowPins).portsSound)
  stall    := rfl
  age      := nofun

/-- Settles O6, part by part of `State.Sound`. -/
theorem resetStateIsSound : Obligations.ResetStateIsSound := ⟨State.afterReset_sound, rfl⟩

/-! ### How a claim is decided (R63 to R67, R69) -/

section
variable (now : BitVec 32) (c : Claim) (j : Journal)

/-- The space a claim needs, in figures. -/
theorem Journal.needed_eq (body : RecordBody) :
    j.needed body = recordLength body + if j.pendingLoss = 0 then 0 else 8 := rfl

/-- An OPEN frame that the claim fits stays OPEN (R64). -/
theorem Journal.closeIfUnfit_fit {need : Nat} {f : OpenFrame} (hf : j.openFrame = some f) (hage : f.age ≤ 65535)
    (hfit : bytesOf f.records + need ≤ j.frameLimit) : j.closeIfUnfit need = j := by
  have hstop : Config.ageStop = 65536 := rfl
  simp only [Journal.closeIfUnfit, hf]
  rw [if_neg (by omega), if_neg (by omega)]

/-- With no OPEN frame none is closed (R64). -/
theorem Journal.closeIfUnfit_none {need : Nat} (hf : j.openFrame = none) : j.closeIfUnfit need = j := by
  simp only [Journal.closeIfUnfit, hf]

/-- An OPEN frame that the claim does not fit is closed, with AGE when it is too old (R64). -/
theorem Journal.closeIfUnfit_unfit {need : Nat} {f : OpenFrame} (hf : j.openFrame = some f)
    (hunfit : 65535 < f.age ∨ j.frameLimit < bytesOf f.records + need) :
    j.closeIfUnfit need = j.closeOpen (if 65535 < f.age then .age else .limit) := by
  have hstop : Config.ageStop = 65536 := rfl
  simp only [Journal.closeIfUnfit, hf]
  by_cases hage : 65535 < f.age
  · rw [if_pos (by omega), if_pos hage]
  · rw [if_neg (by omega), if_neg hage, if_pos (by omega)]

/-- With a frame OPEN the claim needs store space alone (R65). -/
theorem Journal.hasRoom_iff_open (need : Nat) {f : OpenFrame} (hf : j.openFrame = some f) :
    j.hasRoom need = true ↔ need ≤ 16384 - j.storeUsed := by
  have hstore : Config.storeBytes = 16384 := rfl
  simp [Journal.hasRoom, Journal.storeFree, hf, hstore]

/-- With no frame OPEN the claim needs store space and a place in the frame list (R65). -/
theorem Journal.hasRoom_iff_none (need : Nat) (hf : j.openFrame = none) :
    j.hasRoom need = true ↔ need ≤ 16384 - j.storeUsed ∧ j.frames.length < 32 := by
  have hstore : Config.storeBytes = 16384 := rfl
  have hplaces : Config.framePlaces = 32 := rfl
  simp [Journal.hasRoom, Journal.storeFree, Journal.framesHeld, hf, hstore, hplaces]

/-- The answer NO-SPACE counts a loss under DROP alone (R69, R70). -/
theorem Journal.take_of_noRoom (hfit : j.closeIfUnfit (j.needed c.body) = j) (hroom : j.hasRoom (j.needed c.body) = false) :
    j.take now c = (if c.policy = .drop then j.countLost else j, .noSpace) := by
  cases hpolicy : c.policy <;> simp [Journal.take, hfit, hroom, hpolicy]

/-- A claim without close option that has room is appended (R66). -/
theorem Journal.take_of_room (hfit : j.closeIfUnfit (j.needed c.body) = j) (hroom : j.hasRoom (j.needed c.body) = true)
    (hclose : c.close = .none) : j.take now c = (j.append now c.body, .appended) := by
  rw [Journal.take_of_hasRoom now (by rwa [hfit]), hfit, hclose]
  rfl

/-- A claim that an OPEN frame does not fit goes on as it would once the frame is closed (R64). -/
theorem Journal.take_of_unfit (cause : CloseCause)
    (hunfit : j.closeIfUnfit (j.needed c.body) = j.closeOpen cause) : j.take now c = (j.closeOpen cause).take now c := by
  have hneed : (j.closeOpen cause).needed c.body = j.needed c.body := by
    simp [Journal.needed]
  have hfit : (j.closeOpen cause).closeIfUnfit (j.needed c.body) = j.closeOpen cause :=
    Journal.closeIfUnfit_none _ (Journal.closeOpen_kept cause j).1
  unfold Journal.take
  simp only [hneed, hfit, hunfit]

end

/-- Settles O22, from the tests of R64 and R65 in turn. -/
theorem claimIsDecidedByTests : Obligations.ClaimIsDecidedByTests := by
  intro now c j need placed appended timer noSpace
  have hneed : j.needed c.body = need := rfl
  refine ⟨fun f hf hage hlimit => ?_, fun f hf hunfit => ?_, fun hf => ?_⟩
  · have hfit := j.closeIfUnfit_fit hf hage (hneed ▸ hlimit)
    have hroom := j.hasRoom_iff_open need hf
    refine ⟨fun hspace hclose => ?_, fun hspace => ?_⟩
    · rw [j.take_of_room now c hfit (hneed ▸ hroom.2 hspace) hclose]
      simp [Journal.append, Journal.frameForAppend, Journal.placedRecords, hf, placed, appended, timer]
    · rw [j.take_of_noRoom now c hfit (by rw [hneed, ← Bool.not_eq_true, hroom]; omega)]
      rfl
  · rw [j.take_of_unfit now c _ (j.closeIfUnfit_unfit hf (hneed ▸ hunfit)), Journal.closeOpen_some _ hf]
    rfl
  · have hfit := j.closeIfUnfit_none (need := j.needed c.body) hf
    have hroom := j.hasRoom_iff_none need hf
    refine ⟨fun hplaces hspace hclose => ?_, fun hfull => ?_⟩
    · rw [j.take_of_room now c hfit (hneed ▸ hroom.2 ⟨hspace, hplaces⟩) hclose]
      simp [Journal.append, Journal.frameForAppend, Journal.placedRecords, hf, placed, appended, timer]
    · rw [j.take_of_noRoom now c hfit (by rw [hneed, ← Bool.not_eq_true, hroom]; omega)]
      rfl

/-! ### APPEND_CLAIM (R56, R63) -/

/-- The oldest waiting claim of a claimant, behind claims of others. -/
theorem takeWaiting_of_split (who : Claimant) (before after : List WaitingClaim) (c : Claim)
    (h : ∀ w ∈ before, w.claimant ≠ who) : takeWaiting who (before ++ ⟨who, c⟩ :: after) = some (c, before ++ after) := by
  induction before with
  | nil => simp [takeWaiting]
  | cons w before ih =>
    have ih := ih fun x hx => h x (List.mem_cons_of_mem _ hx)
    simp [takeWaiting, h w List.mem_cons_self, ih]

/-- With no claim of the claimant waiting there is none to take. -/
theorem takeWaiting_of_none (who : Claimant) (l : List WaitingClaim) (h : ∀ w ∈ l, w.claimant ≠ who) :
    takeWaiting who l = none := by
  induction l with
  | nil => rfl
  | cons w l ih => simp [takeWaiting, h w List.mem_cons_self, ih fun x hx => h x (List.mem_cons_of_mem _ hx)]

/-- A claim at the part, in figures: the journal's answer, and LOSS exactly on NO-SPACE under DROP (R69). -/
theorem State.claim_literal (c : Claim) (s : State) :
    s.claim c = ({ s with
      jctl := (s.jctl.take s.tbs.time c).1
      alr := if (s.jctl.take s.tbs.time c).2 = .noSpace ∧ c.policy = .drop
             then { s.alr with flags := s.alr.flags ||| 0b000001 } else s.alr }, (s.jctl.take s.tbs.time c).2) := by
  rw [State.claim_eq]
  split <;> rfl

/-- APPEND_CLAIM with a claim of the claimant waiting takes the oldest. -/
theorem execAppendClaim_waiting (who : Claimant) (s : State) (before after : List WaitingClaim) (c : Claim)
    (hs : s.wires.claims = before ++ ⟨who, c⟩ :: after) (h : ∀ w ∈ before, w.claimant ≠ who) :
    execAppendClaim who s = nextOf ((s.withWires { s.wires with claims := before ++ after }).claim c).1 := by
  simp only [execAppendClaim, hs, takeWaiting_of_split who before after c h]

/-- APPEND_CLAIM with none waiting: the path controller's claim for its request in hand is answered, if one has been made. -/
theorem execAppendClaim_none (who : Claimant) (s : State) (h : ∀ w ∈ s.wires.claims, w.claimant ≠ who) :
    execAppendClaim who s = nextOf (if who = .path then s.answerClaim else s) := by
  simp only [execAppendClaim, takeWaiting_of_none who _ h]
  cases who <;> simp

/-- Settles O24, from the claim that APPEND_CLAIM finds and from what a claim does. -/
theorem appendClaimTakesOldestOfClaimant : Obligations.AppendClaimTakesOldestOfClaimant := by
  intro who s
  refine ⟨fun before after c hs h => ?_, fun h hpath => ?_, fun c => s.claim_literal c⟩
  · exact (execAppendClaim_waiting who s before after c hs h).trans (by rw [State.claim_literal]; rfl)
  · refine (execAppendClaim_none who s h).trans ?_
    split
    · next hw => rw [State.answerClaim_none s (hpath hw)]
    · rfl

end Sys2Proof.Machine
end

section
/-! PROOFS. The shared operations of the path controller: the responses at the downstream port and the head of the tracking
list (sections 2.3 and 2.4). -/

namespace Sys2Proof.Machine

/-! ### The head of the list -/

/-- An item that answers stays as it is. -/
theorem answerLocal_answering {it : Item} {rest : List Item} {x : Response} (h : it.phase = .answering x) :
    answerLocal (it :: rest) = it :: rest := by
  rcases it with ⟨cls, _, _, _, _, phase⟩
  cases h
  cases cls <;> rfl

/-- An item that is not LOCAL stays as it is. -/
theorem answerLocal_notLocal {l : List Item} (h : ∀ st, l.head?.map (·.cls) ≠ some (.local st)) : answerLocal l = l := by
  rcases l with _ | ⟨⟨cls, _, _, _, _, phase⟩, rest⟩
  · rfl
  · cases cls <;> cases phase <;> simp_all [answerLocal]

/-- A LOCAL head that waits answers with its status (R26). -/
theorem answerLocal_local {it : Item} {rest : List Item} {st : Status} (hc : it.cls = .local st) (hp : it.phase = .waiting) :
    answerLocal (it :: rest) = { it with phase := .answering ⟨st, []⟩ } :: rest := by
  simp [answerLocal, hc, hp]

/-- A head that has been let answer is let answer once. -/
@[simp] theorem answerLocal_answerLocal (l : List Item) : answerLocal (answerLocal l) = answerLocal l := by
  rcases l with _ | ⟨⟨cls, _, _, _, _, phase⟩, rest⟩
  · rfl
  · cases cls <;> cases phase <;> rfl

/-- A head that is let answer holds responses back afterwards as it did before. -/
theorem headAction_answerLocal {l : List Item} (h : headAction l = .heldBack) : headAction (answerLocal l) = .heldBack := by
  rcases l with _ | ⟨⟨cls, _, _, _, _, phase⟩, rest⟩
  · exact absurd h nofun
  · cases cls <;> cases phase <;> simp_all [answerLocal, headAction]

/-- A head that takes a response, or none at all, is not LOCAL. -/
theorem answerLocal_taking {l : List Item} (h : headAction l ≠ .heldBack) : answerLocal l = l := by
  rcases l with _ | ⟨⟨cls, _, _, _, _, phase⟩, rest⟩
  · rfl
  · cases cls <;> cases phase <;> simp_all [answerLocal, headAction]

/-- A head that answers holds responses back. -/
theorem headAction_answering {it : Item} {rest : List Item} {x : Response} (h : it.phase = .answering x) :
    headAction (it :: rest) = .heldBack := by
  simp [headAction, h]

/-- A waiting head of an issued request takes the response. -/
theorem headAction_forwarded {it : Item} {rest : List Item} (hp : it.phase = .waiting)
    (hc : it.cls = .unwatched ∨ ∃ entry captured, it.cls = .forwarded entry captured) :
    headAction (it :: rest) = .forwarded it rest := by
  obtain hc | ⟨_, _, hc⟩ := hc <;> simp [headAction, hp, hc]

/-- What the FORWARDED action says of the list. -/
theorem headAction_eq_forwarded {l : List Item} {it : Item} {rest : List Item} (h : headAction l = .forwarded it rest) :
    l = it :: rest ∧ it.phase = .waiting ∧ (it.cls = .unwatched ∨ ∃ entry captured, it.cls = .forwarded entry captured) := by
  rcases l with _ | ⟨⟨cls, _, _, _, _, phase⟩, tail⟩
  · exact absurd h nofun
  · cases cls <;> cases phase <;> simp only [headAction, HeadAction.forwarded.injEq, reduceCtorEq] at h <;>
      obtain ⟨rfl, rfl⟩ := h <;> simp

/-- What the PRE-READ action says of the list. -/
theorem headAction_eq_preRead {l : List Item} {rest : List Item} (h : headAction l = .preRead rest) :
    ∃ it, l = it :: rest ∧ it.phase = .waiting ∧ it.cls = .preRead := by
  rcases l with _ | ⟨⟨cls, _, _, _, _, phase⟩, tail⟩
  · exact absurd h nofun
  · cases cls <;> cases phase <;> simp_all [headAction]

/-- What the action on an empty list says of the list. -/
theorem headAction_eq_unmatched {l : List Item} (h : headAction l = .unmatched) : l = [] := by
  rcases l with _ | ⟨⟨cls, _, _, _, _, phase⟩, tail⟩
  · rfl
  · cases cls <;> cases phase <;> simp_all [headAction]

/-! ### A response taken (R27, R31, R39) -/

/-- A response taken for a FORWARDED head: the item answers; a FAILED claim waits, with its alert and its count, on ERROR for a
captured write alone. -/
theorem State.takeForwarded_cases (r : Response) (it : Item) (rest : List Item) (s : State) :
    let s1 := s.withPath { s.path with tracking := { it with phase := .answering r } :: rest, issued := s.path.issued.drop 1 }
    ((∃ entry, it.cls = .forwarded entry true ∧ it.kind = .write ∧ r.status = .error ∧
        s.takeForwarded r it rest = s1.reportFailed it entry) ∨
     ((r.status = .okay ∨ it.kind = .read ∨ ∀ entry, it.cls ≠ .forwarded entry true) ∧ s.takeForwarded r it rest = s1)) := by
  unfold State.takeForwarded
  split
  · next entry hc hk hr => exact .inl ⟨entry, hc, hk, hr, rfl⟩
  · next h =>
    refine .inr ⟨?_, rfl⟩
    rcases hr : r.status with _ | _
    · exact .inl rfl
    · rcases hk : it.kind with _ | _
      · exact .inr (.inl rfl)
      · exact .inr (.inr fun entry hc => h entry hc hk hr)

/-- A response taken for the PRE-READ head: consumed, and the WRITE record claimed if the path controller waits for it. -/
theorem State.takePreRead_cases (r : Response) (rest : List Item) (s : State) :
    (∃ q a, s.path.state = .preRead q a ∧ s.takePreRead r rest = s.withPath { s.path with
        state := .claiming q a (recordOf q a (some r)), tracking := rest, issued := s.path.issued.drop 1 }) ∨
    ((∀ q a, s.path.state ≠ .preRead q a) ∧ s.takePreRead r rest = s.withPath { s.path with
        tracking := rest, issued := s.path.issued.drop 1 }) := by
  rcases h : s.path.state with _ | _ | ⟨q, a⟩ | _ | _
  case preRead => exact .inl ⟨q, a, rfl, by simp [State.takePreRead, State.makeClaim, h]⟩
  all_goals exact .inr ⟨nofun, by simp [State.takePreRead, h]⟩

/-! ### The responses at the downstream port (R25 to R28) -/

section
variable (r : Response) (more : List Response) (s : State)

/-- With no response a LOCAL head answers. -/
theorem State.takeResponses_nil :
    State.takeResponses [] s = s.withPath { s.path with tracking := answerLocal s.path.tracking, held := [] } := rfl

/-- With the list empty the response is unmatched. -/
theorem State.takeResponses_unmatched (h : headAction s.path.tracking = .unmatched) :
    State.takeResponses (r :: more) s = State.takeResponses more s.unmatched := by
  simp [State.takeResponses, h]

/-- A PRE-READ head consumes the response. -/
theorem State.takeResponses_preRead {rest : List Item} (h : headAction s.path.tracking = .preRead rest) :
    State.takeResponses (r :: more) s = State.takeResponses more (s.takePreRead r rest) := by
  simp [State.takeResponses, h]

/-- A FORWARDED head takes the response, and the others stay held back. -/
theorem State.takeResponses_forwarded {it : Item} {rest : List Item} (h : headAction s.path.tracking = .forwarded it rest) :
    State.takeResponses (r :: more) s =
      (s.takeForwarded r it rest).withPath { (s.takeForwarded r it rest).path with held := more } := by
  simp [State.takeResponses, h]

/-- Behind another head all stay held back. -/
theorem State.takeResponses_heldBack (h : headAction s.path.tracking = .heldBack) :
    State.takeResponses (r :: more) s =
      s.withPath { s.path with tracking := answerLocal s.path.tracking, held := r :: more } := by
  simp [State.takeResponses, h]

/-- Behind a head that has been evaluated and holds responses back, all stay held back. -/
theorem State.takeResponses_blocked (l : List Response) (h : headAction s.path.tracking = .heldBack)
    (hself : answerLocal s.path.tracking = s.path.tracking) :
    State.takeResponses l s = s.withPath { s.path with held := l } := by
  cases l with
  | nil => rw [State.takeResponses_nil, hself]
  | cons r more => rw [State.takeResponses_heldBack r more s h, hself]

/-- Behind a head that answers all stay held back. -/
theorem State.takeResponses_answering {it : Item} {rest : List Item} {x : Response} (l : List Response)
    (ht : s.path.tracking = it :: rest) (hp : it.phase = .answering x) :
    State.takeResponses l s = s.withPath { s.path with held := l } :=
  s.takeResponses_blocked l (by rw [ht, headAction_answering hp]) (by rw [ht, answerLocal_answering hp])

end

/-- The tracking list after a response has been taken for a FORWARDED head. -/
theorem State.takeForwarded_tracking (r : Response) (it : Item) (rest : List Item) (s : State) :
    (s.takeForwarded r it rest).path.tracking = { it with phase := .answering r } :: rest := by
  obtain ⟨_, -, -, -, h⟩ | ⟨-, h⟩ := s.takeForwarded_cases r it rest <;> rw [h] <;> rfl

/-- What is held at the port plays no part in the taking of one response. -/
theorem State.takeForwarded_held (r : Response) (it : Item) (rest : List Item) (m : List Response) (s : State) :
    (s.withPath { s.path with held := m }).takeForwarded r it rest =
      (s.takeForwarded r it rest).withPath { (s.takeForwarded r it rest).path with held := m } := by
  rcases it with ⟨_ | ⟨_, _ | _⟩ | _ | _, _ | _, _, _, _, _⟩ <;> rcases r with ⟨_ | _, _⟩ <;> rfl

/-- What was held at the port before does not matter. -/
@[simp] theorem State.takeResponses_held (l m : List Response) (s : State) :
    State.takeResponses l (s.withPath { s.path with held := m }) = State.takeResponses l s := by
  induction l generalizing s with
  | nil => rfl
  | cons r l ih =>
    have hpath : (s.withPath { s.path with held := m }).path.tracking = s.path.tracking := rfl
    cases h : headAction s.path.tracking with
    | unmatched =>
      rw [State.takeResponses_unmatched r l s h, State.takeResponses_unmatched r l _ (by rwa [hpath]), ← ih s.unmatched]
      rfl
    | preRead rest =>
      rw [State.takeResponses_preRead r l s h, State.takeResponses_preRead r l _ (by rwa [hpath]), ← ih (s.takePreRead r rest)]
      congr 1
      unfold State.takePreRead
      rcases hs : s.path.state <;> simp [hs, State.makeClaim]
    | forwarded it rest =>
      rw [State.takeResponses_forwarded r l s h, State.takeResponses_forwarded r l _ (by rwa [hpath])]
      rw [State.takeForwarded_held]
      rfl
    | heldBack =>
      rw [State.takeResponses_heldBack r l s h, State.takeResponses_heldBack r l _ (by rwa [hpath])]
      rfl

/-- Responses that come one run after another are taken as one run: those held back of the first come before the second. -/
theorem State.takeResponses_append (l m : List Response) (s : State) :
    State.takeResponses (l ++ m) s = State.takeResponses ((State.takeResponses l s).path.held ++ m) (State.takeResponses l s) := by
  induction l generalizing s with
  | nil =>
    rw [State.takeResponses_nil]
    by_cases h : headAction s.path.tracking = .heldBack
    · refine Eq.trans ?_ (State.takeResponses_blocked _ _ (headAction_answerLocal h) (answerLocal_answerLocal _)).symm
      cases m with
      | nil => rfl
      | cons r m => exact State.takeResponses_heldBack r m s h
    · rw [answerLocal_taking h]
      exact (State.takeResponses_held m [] s).symm
  | cons r l ih =>
    rw [List.cons_append]
    cases h : headAction s.path.tracking with
    | unmatched => rw [State.takeResponses_unmatched r _ s h, State.takeResponses_unmatched r _ s h, ih]
    | preRead rest => rw [State.takeResponses_preRead r _ s h, State.takeResponses_preRead r _ s h, ih]
    | forwarded it rest =>
      rw [State.takeResponses_forwarded r _ s h, State.takeResponses_forwarded r _ s h]
      rw [State.takeResponses_held]
      exact (State.takeResponses_answering _ _ (s.takeForwarded_tracking r it rest) rfl).symm
    | heldBack =>
      rw [State.takeResponses_heldBack r _ s h, State.takeResponses_heldBack r _ s h]
      exact Eq.symm (State.takeResponses_blocked _ _ (headAction_answerLocal h) (answerLocal_answerLocal _))

/-- Once the responses have been taken as far as the head takes them, evaluating the head again changes nothing. -/
@[simp] theorem State.evaluateHead_takeResponses (l : List Response) (s : State) :
    (State.takeResponses l s).evaluateHead = State.takeResponses l s := by
  have h := State.takeResponses_append l [] s
  rw [List.append_nil, List.append_nil] at h
  exact h.symm

end Sys2Proof.Machine
end

section
/-! PROOFS. Requests taken: forwarded, refused, claimed, read before, or waiting for a place (chapters 1 and 2). -/

namespace Sys2Proof.Machine

/-! ### A request taken (R21) -/

section
variable (r : Request) {s : State}

/-- In IDLE the request is taken. -/
theorem exec_requestTaken_idle (h : s.path.state = .idle) : exec (.requestTaken r) s = nextOf (s.takeRequest r) := by
  simp only [exec, execRequestTaken, h]

/-- In any other state it is not. -/
theorem exec_requestTaken_busy (h : s.path.state ≠ .idle) : exec (.requestTaken r) s = nextOf s := by
  rcases hs : s.path.state with _ | _ | _ | _ | _
  case idle => exact absurd hs h
  all_goals simp only [exec, execRequestTaken, hs]

/-- Classification leaves the path controller alone. -/
theorem State.classify_path : (s.classify r).1.path = s.path := by
  rw [State.classify_eq]
  split <;> rfl

/-- With a place free the request is classified and handled, and the head evaluated. -/
theorem State.takeRequest_place (h : s.path.tracking.length < 8) :
    s.takeRequest r = ((s.classify r).1.handle ⟨r, (s.classify r).2⟩).evaluateHead := by
  have hplaces : Config.trackingPlaces = 8 := rfl
  simp only [State.takeRequest, State.classify_path]
  rw [if_neg (by omega)]

/-- With the list full it is classified and waits. -/
theorem State.takeRequest_full (h : 8 ≤ s.path.tracking.length) :
    s.takeRequest r = (s.classify r).1.withPath { s.path with state := .waitSlot ⟨r, (s.classify r).2⟩ } := by
  have hplaces : Config.trackingPlaces = 8 := rfl
  simp only [State.takeRequest, State.classify_path]
  rw [if_pos (by omega)]

/-- A request that no entry governs is unwatched. -/
theorem State.classify_unwatched (h : s.wtab.governing r = none) : s.classify r = (s, none) := by
  rw [State.classify_eq, h]

/-- A request that an entry governs is hit and has its attributes. -/
theorem State.classify_watched {e : WatchEntry} {k : Nat} (h : s.wtab.governing r = some (e, k)) :
    s.classify r = (s.withWtab (s.wtab.put k { e with hitCount := satInc e.hitCount }),
      some (e.attributes k s.frzu.effective r)) := by
  rw [State.classify_eq, h]

end

/-! ### What keeps the ports sound -/

/-- An item that waits for memory is not LOCAL and waits. -/
theorem Item.awaitsMemory_iff (it : Item) : it.awaitsMemory = true ↔ it.phase = .waiting ∧ ∀ st, it.cls ≠ .local st := by
  rcases it with ⟨cls, _, _, _, _, phase⟩
  cases cls <;> cases phase <;> simp [Item.awaitsMemory]

/-- A request issued with its item last in the list keeps the ports sound. -/
theorem State.portsSound_issued {s : State} (h : s.portsSound) (st : PathState) (it : Item) (q : Request)
    (hit : it.awaitsMemory = true) :
    (s.withPath { s.path with
      state := st, tracking := s.path.tracking ++ [it], issued := s.path.issued ++ [q] }).portsSound := by
  obtain ⟨hheld, hissued, hlocal⟩ := h
  obtain ⟨hp, hc⟩ := it.awaitsMemory_iff.1 hit
  refine ⟨fun hne => ?_, by simp [hissued, hit], ?_⟩
  · have hhead := hheld hne
    cases ht : s.path.tracking with
    | nil => simp [ht] at hhead
    | cons head rest => simpa [ht] using hhead
  · cases ht : s.path.tracking with
    | nil =>
      rcases it with ⟨cls, _, _, _, _, _⟩
      cases cls <;> simp_all
    | cons head rest => simpa [ht] using hlocal

/-- An item that the part answers, last in a list with another head, keeps the ports sound. -/
theorem State.portsSound_local {s : State} (h : s.portsSound) (st : PathState) (it : Item) (n : BitVec 32)
    (hit : it.awaitsMemory = false) (ht : s.path.tracking ≠ []) :
    (s.withPath { s.path with
      state := st, tracking := s.path.tracking ++ [it], writesRefused := n }).portsSound := by
  obtain ⟨hheld, hissued, hlocal⟩ := h
  obtain ⟨head, rest, ht⟩ := List.exists_cons_of_ne_nil ht
  rw [ht] at hheld hissued hlocal
  refine ⟨?_, ?_, ?_⟩ <;> simp only [State.withPath_fields, ht, List.cons_append]
  · exact hheld
  · simp [hissued, hit, List.countP_cons]
  · exact hlocal

/-- The item of a request in a class that goes to memory waits for memory. -/
theorem itemOf_awaitsMemory (cls : ItemClass) (r : Request) (h : ∀ st, cls ≠ .local st) :
    (itemOf cls r).awaitsMemory = true := (Item.awaitsMemory_iff _).2 ⟨rfl, h⟩

/-- Forwarding leaves the head nothing to do. -/
theorem State.evaluateHead_forward {s : State} (h : s.portsSound) {cls : ItemClass} (hc : ∀ st, cls ≠ .local st) (r : Request) :
    (s.forward r cls).evaluateHead = s.forward r cls :=
  State.evaluateHead_eq_self _ (State.portsSound_issued h .idle _ r (itemOf_awaitsMemory cls r hc))

/-- With nothing held at the port the tracking list may be empty. -/
theorem State.portsSound_held {s : State} (h : s.portsSound) (ht : s.path.tracking = []) : s.path.held = [] := by
  by_contra hne
  simpa [ht] using h.1 hne

/-! ### Handling (Table 2-4) -/

/-- The attributes of a write that is refused, and of a request that is not. -/
theorem WatchEntry.attributes_refused (e : WatchEntry) (k : Nat) (on : Bool) (r : Request) :
    (e.attributes k on r).refused = true ↔ r.kind = .write ∧ e.freezable = true ∧ on = true := by
  simp [WatchEntry.attributes, and_assoc]

section
variable {s : State} {r : Request} {e : WatchEntry} {k : Nat}

/-- A request of form NONE that is not refused is forwarded (R38). -/
theorem State.handle_none {a : Attributes} (href : a.refused = false) (hform : a.form = .none) :
    s.handle ⟨r, some a⟩ = s.forward r (.forwarded a.entry false) := by
  simp [State.handle, href, hform]

/-- A write of form BOTH that is not refused has its before-image read (R30). -/
theorem State.handle_both {a : Attributes} (href : a.refused = false) (hform : a.form = .both) (hk : r.kind = .write) :
    s.handle ⟨r, some a⟩ = s.startPreRead r a := by
  simp [State.handle, href, hform, hk]

/-- A captured request that needs no before-image has its claim made (R33). -/
theorem State.handle_captured {a : Attributes} (href : a.refused = false) (hform : a.form = .address ∨ a.form = .after) :
    s.handle ⟨r, some a⟩ = s.makeClaim r a (recordOf r a none) := by
  obtain hform | hform := hform <;> simp [State.handle, href, hform]

/-- A refused write is answered by the part (R32). -/
theorem State.handle_refused {a : Attributes} (href : a.refused = true) :
    s.handle ⟨r, some a⟩ = s.refuseWrite r a := by
  simp [State.handle, href]

/-- A request governed by an entry, taken in IDLE with a place free. -/
theorem exec_requestTaken_watched (hidle : s.path.state = .idle) (hplace : s.path.tracking.length < 8)
    (hgov : s.wtab.governing r = some (e, k)) :
    exec (.requestTaken r) s = nextOf (((s.withWtab (s.wtab.put k { e with hitCount := satInc e.hitCount })).handle
      ⟨r, some (e.attributes k s.frzu.effective r)⟩).evaluateHead) := by
  rw [exec_requestTaken_idle r hidle, State.takeRequest_place r hplace, State.classify_watched r hgov]

end

/-- Settles O25: forwarding keeps the ports sound, so the head has nothing to do. -/
theorem uncapturedRequestIsForwarded : Obligations.UncapturedRequestIsForwarded := by
  intro r s hidle hplace hports
  constructor
  · intro hgov
    rw [exec_requestTaken_idle r hidle, State.takeRequest_place r hplace, State.classify_unwatched r hgov]
    simp only [State.handle]
    rw [State.evaluateHead_forward hports (cls := .unwatched) nofun, State.forward_eq, ← hidle]
    rfl
  · intro e k hgov hwrite hread
    have href : (e.attributes k s.frzu.effective r).refused = false := by
      rw [← Bool.not_eq_true, WatchEntry.attributes_refused]
      rintro ⟨hk, hfreezable, hon⟩
      obtain ⟨-, h | h⟩ := hwrite hk <;> simp_all
    have hform : (e.attributes k s.frzu.effective r).form = .none := by
      cases hk : r.kind with
      | write => simp [WatchEntry.attributes, WatchEntry.formFor, hk, hwrite hk]
      | read => simp [WatchEntry.attributes, WatchEntry.formFor, hk, hread hk]
    rw [exec_requestTaken_watched hidle hplace hgov, State.handle_none href hform, State.evaluateHead_forward,
      State.forward_eq, ← hidle]
    · rfl
    · exact hports
    · exact nofun

/-- Settles O26, from the classification alone. -/
theorem requestWaitsForAPlace : Obligations.RequestWaitsForAPlace := by
  intro r s
  refine ⟨fun hidle hfull => ⟨fun hgov => ?_, fun e k hgov => ?_⟩, exec_requestTaken_busy r⟩
  · rw [exec_requestTaken_idle r hidle, State.takeRequest_full r hfull, State.classify_unwatched r hgov]
    rfl
  · rw [exec_requestTaken_idle r hidle, State.takeRequest_full r hfull, State.classify_watched r hgov]
    congr 2
    cases hk : r.kind <;> cases hr : e.readForm <;>
      simp [State.withPath, State.withWtab, WatchEntry.attributes, WatchEntry.formFor, hk, hr, FreezeUnit.effective,
        FreezeUnit.pinFreeze]

/-- Settles O27: the LOCAL item answers at once when it is the head. -/
theorem refusedWriteIsAnsweredLocally : Obligations.RefusedWriteIsAnsweredLocally := by
  intro r s e k hidle hplace hports hgov hk hfreezable hon status
  have href := (e.attributes_refused k s.frzu.effective r).2 ⟨hk, hfreezable, hon⟩
  have hstatus : refusalStatus e.refusal = status := by
    cases hr : e.refusal <;> simp [refusalStatus, status, hr]
  rw [exec_requestTaken_watched hidle hplace hgov, State.handle_refused href, State.refuseWrite]
  by_cases ht : s.path.tracking = []
  · have hheld := s.portsSound_held hports ht
    simp only [State.evaluateHead, State.withPath_fields, State.postClaim_fields, State.withWtab_fields, hheld,
      State.takeResponses_nil, ht, List.nil_append, if_true]
    rw [answerLocal_local rfl rfl, ← hidle, ← hk, ← hstatus, ← hheld]
    rfl
  · rw [State.evaluateHead_eq_self, if_neg ht, ← hidle, ← hk, ← hstatus]
    · rfl
    · exact State.portsSound_local hports .idle _ _ rfl ht

/-- Settles O28: the claim made keeps the ports sound; APPEND_CLAIM finds no REFUSED claim before it and has it answered. -/
theorem capturedRequestIsClaimedFirst : Obligations.CapturedRequestIsClaimedFirst := by
  constructor
  · intro r s e k body hidle hplace hports hgov hcase
    have href : (e.attributes k s.frzu.effective r).refused = false := by
      rw [← Bool.not_eq_true, WatchEntry.attributes_refused]
      rintro ⟨hk, hfreezable, hon⟩
      obtain ⟨-, h | h, -⟩ | ⟨-, h | h, -⟩ | ⟨h, -⟩ := hcase <;> simp_all
    have hattrs : e.attributes k s.frzu.effective r =
        { entry := BitVec.ofNat 4 k, form := if e.writeForm = .after ∧ r.kind = .write then .after else .address
          lossPolicy := e.lossPolicy, refused := false, refusal := e.refusal, closeAfter := e.closeAfter } := by
      rw [← href]
      obtain ⟨hk, -, hf, -⟩ | ⟨hk, -, hf, -⟩ | ⟨hk, hf, -⟩ := hcase <;>
        simp [WatchEntry.attributes, WatchEntry.formFor, hk, hf]
    have hbody : recordOf r (e.attributes k s.frzu.effective r) none = body := by
      rw [hattrs]
      obtain ⟨hk, -, hf, rfl⟩ | ⟨hk, -, hf, rfl⟩ | ⟨hk, hf, rfl⟩ := hcase <;> simp [recordOf, writeData, hk, hf]
    rw [exec_requestTaken_watched hidle hplace hgov, State.handle_captured href (by rw [hattrs]; dsimp; split <;> simp),
      hbody, hattrs, State.evaluateHead_eq_self]
    · rfl
    · exact hports
  · intro r a body s hstate hclaims c forwarded
    have hexec : exec (.appendClaim .path) s = nextOf (s.claimThenForward r a body) := by
      refine (execAppendClaim_none .path s hclaims).trans ?_
      simp only [if_true, State.answerClaim, hstate]
    have hpath := (State.claim_fields (claimOf a body) s).1
    rw [hexec]
    obtain ⟨ha, h⟩ | ⟨ha, hl, h⟩ | ⟨ha, hl, h⟩ := State.claimThenForward_cases r a body s
    · refine ⟨fun _ => ?_, fun hc => absurd (ha.symm.trans hc) nofun, fun hc => absurd (ha.symm.trans hc) nofun⟩
      rw [h, State.forward_eq, hpath]
      rfl
    · refine ⟨fun hc => absurd (ha.symm.trans hc) nofun, fun _ _ => ?_, fun _ hhold => absurd (hl.symm.trans hhold) nofun⟩
      rw [h, State.forward_eq, hpath]
      rfl
    · refine ⟨fun hc => absurd (ha.symm.trans hc) nofun, fun _ hdrop => absurd (hl.symm.trans hdrop) nofun, fun _ _ => ?_⟩
      rw [h]
      rfl

/-- Settles O29: the before-image read is issued like any request. -/
theorem formBothReadsMemoryFirst : Obligations.FormBothReadsMemoryFirst := by
  intro r s e k hidle hplace hports hgov hk hfree hform
  have href : (e.attributes k s.frzu.effective r).refused = false := by
    rw [← Bool.not_eq_true, WatchEntry.attributes_refused]
    rintro ⟨-, hfreezable, hon⟩
    obtain h | h := hfree <;> simp_all
  have hattrs : e.attributes k s.frzu.effective r =
      { entry := BitVec.ofNat 4 k, form := .both, lossPolicy := e.lossPolicy, refused := false, refusal := e.refusal
        closeAfter := e.closeAfter } := by
    rw [← href]
    simp [WatchEntry.attributes, WatchEntry.formFor, hk, hform]
  rw [exec_requestTaken_watched hidle hplace hgov, State.handle_both href (by rw [hattrs]) hk, hattrs, State.startPreRead,
    State.evaluateHead_eq_self]
  · rfl
  · exact State.portsSound_issued hports _ _ _ (itemOf_awaitsMemory .preRead _ nofun)

end Sys2Proof.Machine
end

section
/-! PROOFS. Responses: what they find at the head of the tracking list, and what an acceptance frees (section 2.3). -/

namespace Sys2Proof.Machine

/-! ### What the taking of responses leaves alone -/

/-- What the taking of one response for a FORWARDED head leaves alone. -/
theorem State.takeForwarded_fields (r : Response) (it : Item) (rest : List Item) (s : State) :
    let t := s.takeForwarded r it rest
    t.path.state = s.path.state ∧ t.cmd = s.cmd := by
  obtain ⟨_, -, -, -, h⟩ | ⟨-, h⟩ := s.takeForwarded_cases r it rest <;> rw [h] <;> exact ⟨rfl, rfl⟩

/-- The taking of responses leaves the command unit alone, and the path state too, but for the claim that the response to a
before-image read brings. -/
theorem State.takeResponses_state (l : List Response) (s : State) :
    (State.takeResponses l s).cmd = s.cmd ∧
    ((State.takeResponses l s).path.state = s.path.state ∨
      ∃ q a body, s.path.state = .preRead q a ∧ (State.takeResponses l s).path.state = .claiming q a body) := by
  induction l generalizing s with
  | nil => exact ⟨rfl, .inl rfl⟩
  | cons r l ih =>
    cases h : headAction s.path.tracking with
    | unmatched => rw [State.takeResponses_unmatched r l s h]; exact ih s.unmatched
    | preRead rest =>
      rw [State.takeResponses_preRead r l s h]
      obtain ⟨hcmd, hstate⟩ := ih (s.takePreRead r rest)
      obtain ⟨q, a, hs, ht⟩ | ⟨hs, ht⟩ := s.takePreRead_cases r rest <;> rw [ht] at hcmd hstate ⊢
      · refine ⟨hcmd, .inr ⟨q, a, recordOf q a (some r), hs, ?_⟩⟩
        obtain hstate | ⟨_, _, _, hstate, -⟩ := hstate
        · exact hstate
        · exact absurd hstate nofun
      · exact ⟨hcmd, hstate⟩
    | forwarded it rest =>
      rw [State.takeResponses_forwarded r l s h]
      exact ⟨(s.takeForwarded_fields r it rest).2, .inl (s.takeForwarded_fields r it rest).1⟩
    | heldBack => rw [State.takeResponses_heldBack r l s h]; exact ⟨rfl, .inl rfl⟩

/-- WAIT-SLOT neither begins nor ends with the taking of responses. -/
theorem State.takeResponses_waitSlot (l : List Response) (s : State) (h : InHand) :
    (State.takeResponses l s).path.state = .waitSlot h ↔ s.path.state = .waitSlot h := by
  obtain ⟨-, hs | ⟨_, _, _, hs, ht⟩⟩ := s.takeResponses_state l
  · rw [hs]
  · rw [hs, ht]; exact ⟨nofun, nofun⟩

/-- Behind a head that holds responses back, or with no response, the head is let answer. -/
theorem State.takeResponses_kept (l : List Response) (s : State) (h : headAction s.path.tracking = .heldBack ∨ l = []) :
    State.takeResponses l s = s.withPath { s.path with tracking := answerLocal s.path.tracking, held := l } := by
  cases l with
  | nil => rfl
  | cons r l => exact State.takeResponses_heldBack r l s (h.resolve_right nofun)

/-- With the list empty every response is unmatched (R28). -/
theorem State.takeResponses_empty (l : List Response) (s : State) (h : s.path.tracking = []) :
    State.takeResponses l s = s.withPath { s.path with
      tracking := [], held := [], unmatchedResponses := l.foldl (fun n _ => satInc n) s.path.unmatchedResponses } := by
  induction l generalizing s with
  | nil => rw [State.takeResponses_nil, h]; rfl
  | cons r l ih =>
    rw [State.takeResponses_unmatched r l s (by rw [h]; rfl), ih s.unmatched h]
    rfl

/-- The head that is let answer changes neither the number of items nor that of those that wait for memory. -/
theorem answerLocal_counts (l : List Item) :
    (answerLocal l).length = l.length ∧ (answerLocal l).countP Item.awaitsMemory = l.countP Item.awaitsMemory ∧
    ((answerLocal l).head?.all fun it => match it.cls with | .local _ => decide (it.phase ≠ .waiting) | _ => true) := by
  rcases l with _ | ⟨⟨cls, _, _, _, _, phase⟩, rest⟩
  · exact ⟨rfl, rfl, rfl⟩
  · cases cls <;> cases phase <;> simp [answerLocal, Item.awaitsMemory, List.countP_cons]

/-- With as many requests issued as items that wait for memory, the ports stand sound once the responses have been taken. -/
theorem State.takeResponses_portsSound (l : List Response) (s : State)
    (h : s.path.issued.length = s.path.tracking.countP Item.awaitsMemory) : (State.takeResponses l s).portsSound := by
  induction l generalizing s with
  | nil =>
    obtain ⟨-, hcount, hlocal⟩ := answerLocal_counts s.path.tracking
    exact ⟨fun hne => absurd rfl hne, h.trans hcount.symm, hlocal⟩
  | cons r l ih =>
    cases ha : headAction s.path.tracking with
    | unmatched => rw [State.takeResponses_unmatched r l s ha]; exact ih s.unmatched h
    | preRead rest =>
      rw [State.takeResponses_preRead r l s ha]
      obtain ⟨it, ht, hp, hc⟩ := headAction_eq_preRead ha
      have hit : it.awaitsMemory = true := it.awaitsMemory_iff.2 ⟨hp, by simp [hc]⟩
      rw [ht, List.countP_cons_of_pos hit] at h
      refine ih _ ?_
      obtain ⟨_, _, -, hr⟩ | ⟨-, hr⟩ := s.takePreRead_cases r rest <;> rw [hr] <;> simp [h]
    | forwarded it rest =>
      rw [State.takeResponses_forwarded r l s ha]
      obtain ⟨ht, hp, hc⟩ := headAction_eq_forwarded ha
      have hit : it.awaitsMemory = true := it.awaitsMemory_iff.2 ⟨hp, by obtain hc | ⟨_, _, hc⟩ := hc <;> simp [hc]⟩
      rw [ht, List.countP_cons_of_pos hit] at h
      have htracking := s.takeForwarded_tracking r it rest
      have hissued : (s.takeForwarded r it rest).path.issued = s.path.issued.drop 1 := by
        obtain ⟨_, -, -, -, hr⟩ | ⟨-, hr⟩ := s.takeForwarded_cases r it rest <;> rw [hr] <;> rfl
      refine ⟨fun _ => ?_, ?_, ?_⟩ <;> simp only [State.withPath_fields, htracking, hissued]
      · simp
      · simp [h, Item.awaitsMemory]
      · obtain hc | ⟨_, _, hc⟩ := hc <;> simp [hc]
    | heldBack =>
      rw [State.takeResponses_heldBack r l s ha]
      obtain ⟨-, hcount, hlocal⟩ := answerLocal_counts s.path.tracking
      refine ⟨fun _ => ?_, h.trans hcount.symm, hlocal⟩
      rcases ht : s.path.tracking with _ | ⟨⟨cls, _, _, _, _, phase⟩, rest⟩
      · rw [ht] at ha; exact absurd ha nofun
      · rw [ht] at ha
        cases cls <;> cases phase <;> simp_all [headAction, answerLocal]

/-- With no before-image read in the list, the taking of responses removes no item. -/
theorem State.takeResponses_length (l : List Response) (s : State) (h : s.path.tracking.all (fun it => !it.isPreRead)) :
    (State.takeResponses l s).path.tracking.length = s.path.tracking.length := by
  induction l generalizing s with
  | nil => exact (answerLocal_counts _).1
  | cons r l ih =>
    cases ha : headAction s.path.tracking with
    | unmatched => rw [State.takeResponses_unmatched r l s ha]; exact ih s.unmatched h
    | preRead rest =>
      obtain ⟨it, ht, -, hc⟩ := headAction_eq_preRead ha
      rw [ht] at h
      simp [Item.isPreRead, hc] at h
    | forwarded it rest =>
      rw [State.takeResponses_forwarded r l s ha]
      simp only [State.withPath_fields, s.takeForwarded_tracking r it rest, (headAction_eq_forwarded ha).1,
        List.length_cons]
    | heldBack => rw [State.takeResponses_heldBack r l s ha]; exact (answerLocal_counts _).1

/-! ### WAIT-SLOT (R22) -/

/-- Out of WAIT-SLOT there is none to end. -/
theorem State.endWaitSlot_other (s : State) (h : ∀ w, s.path.state ≠ .waitSlot w) : s.endWaitSlot = s := by
  rcases hs : s.path.state with _ | w | _ | _ | _
  case waitSlot => exact absurd hs (h w)
  all_goals simp only [State.endWaitSlot, hs]

/-- With no place free it goes on. -/
theorem State.endWaitSlot_full (s : State) (h : 8 ≤ s.path.tracking.length) : s.endWaitSlot = s := by
  have hplaces : Config.trackingPlaces = 8 := rfl
  unfold State.endWaitSlot
  split
  · rw [if_neg (by omega)]
  · rfl

/-- With a place free the handling goes on. -/
theorem State.endWaitSlot_free (s : State) (w : InHand) (h : s.path.state = .waitSlot w) (hl : s.path.tracking.length < 8) :
    s.endWaitSlot = s.handle w := by
  have hplaces : Config.trackingPlaces = 8 := rfl
  simp only [State.endWaitSlot, h]
  rw [if_pos (by omega)]

/-- In WAIT-SLOT the list is full. -/
theorem State.trackingSound_full {s : State} (h : s.trackingSound) {w : InHand} (hs : s.path.state = .waitSlot w) :
    s.path.tracking.length = 8 ∧ s.path.tracking.all (fun it => !it.isPreRead) := by
  obtain ⟨-, -, hm⟩ := h
  simpa only [hs] using hm

/-- Handling a request leaves a head that has been evaluated nothing to do. -/
theorem State.evaluateHead_handle (s : State) (h : s.portsSound) (ht : s.path.tracking ≠ []) (w : InHand) :
    (s.handle w).evaluateHead = s.handle w := by
  refine State.evaluateHead_eq_self _ ?_
  rcases w with ⟨r, _ | a⟩
  · exact State.portsSound_issued h .idle _ r (itemOf_awaitsMemory .unwatched r nofun)
  · cases href : a.refused with
    | true =>
      rw [State.handle_refused href]
      exact State.portsSound_local h .idle _ _ rfl ht
    | false =>
      cases hform : a.form with
      | none =>
        rw [State.handle_none href hform]
        exact State.portsSound_issued h .idle _ r (itemOf_awaitsMemory (.forwarded _ false) r nofun)
      | address => rw [State.handle_captured href (.inl hform)]; exact h
      | after => rw [State.handle_captured href (.inr hform)]; exact h
      | both =>
        cases hk : r.kind with
        | write =>
          rw [State.handle_both href hform hk]
          exact State.portsSound_issued h _ _ _ (itemOf_awaitsMemory .preRead _ nofun)
        | read =>
          have hread : s.handle ⟨r, some a⟩ = s.makeClaim r a (recordOf r a none) := by
            simp [State.handle, href, hform, hk]
          rw [hread]
          exact h

/-! ### DOWNSTREAM_RESPONSE -/

/-- Where the response ends no WAIT-SLOT, it joins those held at the port, and they are taken. -/
theorem exec_downstreamResponse (r : Response) (s : State)
    (h : ∀ w, s.path.state = .waitSlot w → 8 ≤ (State.takeResponses (s.path.held ++ [r]) s).path.tracking.length) :
    exec (.downstreamResponse r) s = nextOf (State.takeResponses (s.path.held ++ [r]) s) := by
  have hend : (State.takeResponses (s.path.held ++ [r]) s).endWaitSlot = State.takeResponses (s.path.held ++ [r]) s := by
    by_cases hw : ∃ w, s.path.state = .waitSlot w
    · obtain ⟨w, hw⟩ := hw
      exact State.endWaitSlot_full _ (h w hw)
    · exact State.endWaitSlot_other _ fun w => by rw [ne_eq, State.takeResponses_waitSlot]; exact fun hs => hw ⟨w, hs⟩
  simp only [exec, execDownstreamResponse]
  rw [hend, State.evaluateHead_takeResponses]

/-- Settles O30: the PRE-READ head consumes the response. -/
theorem beforeImageEntersTheRecord : Obligations.BeforeImageEntersTheRecord := by
  intro resp s r a it hstate ht hc hp hheld hk hform body
  have haction : headAction s.path.tracking = .preRead [] := by simp [ht, headAction, hp, hc]
  have hbody : recordOf r a (some resp) = body := by
    rcases resp with ⟨_ | _, _⟩ <;> simp [recordOf, writeData, hk, hform, body]
  rw [exec_downstreamResponse _ _ (by simp [hstate]), hheld, List.nil_append, State.takeResponses_preRead _ _ _ haction,
    State.takeResponses_nil]
  obtain ⟨q, b, hs, htake⟩ | ⟨hs, -⟩ := s.takePreRead_cases resp []
  · obtain ⟨rfl, rfl⟩ : r = q ∧ a = b := by simpa [hstate] using hs
    rw [htake, hbody, ← hheld]
    rfl
  · exact absurd hstate (hs r a)

/-- The number of items that a response leaves, where the head is no before-image read. -/
theorem State.trackingSound_places {s : State} (h : s.trackingSound) (l : List Response) (w : InHand)
    (hs : s.path.state = .waitSlot w) : 8 ≤ (State.takeResponses l s).path.tracking.length := by
  obtain ⟨hlen, hpre⟩ := s.trackingSound_full h hs
  rw [s.takeResponses_length l hpre, hlen]

/-- Settles O31: a waiting head has nothing held before it. -/
theorem responseMeetsTheHead : Obligations.ResponseMeetsTheHead := by
  intro r s it rest htracking hports ht offered
  have hexec := exec_downstreamResponse r s (s.trackingSound_places htracking _)
  have hheld (hp : it.phase = .waiting) : s.path.held = [] := by
    by_contra hne
    simpa [ht, hp] using hports.1 hne
  refine ⟨fun hp hc hok => ?_, fun entry hp hc hk hr => ?_, fun x hp => ?_⟩
  · have haction : headAction s.path.tracking = .forwarded it rest := by rw [ht, headAction_forwarded hp hc]
    rw [hexec, hheld hp, List.nil_append, State.takeResponses_forwarded r [] s haction]
    obtain ⟨entry, hc', hk, hr, -⟩ | ⟨-, h⟩ := s.takeForwarded_cases r it rest
    · exfalso
      obtain h | h | h := hok
      · exact absurd (h.symm.trans hr) nofun
      · exact absurd (h.symm.trans hk) nofun
      · exact h entry hc'
    · rw [h, ← hheld hp]
      rfl
  · have haction : headAction s.path.tracking = .forwarded it rest := by
      rw [ht, headAction_forwarded hp (.inr ⟨entry, true, hc⟩)]
    rw [hexec, hheld hp, List.nil_append, State.takeResponses_forwarded r [] s haction]
    obtain ⟨entry', hc', -, -, h⟩ | ⟨h, -⟩ := s.takeForwarded_cases r it rest
    · obtain rfl : entry = entry' := by simpa [hc] using hc'
      rw [h, ← hheld hp]
      rfl
    · exfalso
      obtain h | h | h := h
      · exact absurd (h.symm.trans hr) nofun
      · exact absurd (h.symm.trans hk) nofun
      · exact h entry hc
  · rw [hexec, State.takeResponses_answering s _ ht hp]
    rfl

end Sys2Proof.Machine
end

section
/-! PROOFS. RESPONSE_ACCEPTED, SPACE_FREED_REPORT and STALL_TIMER_EXPIRY (sections 2.2, 2.3, 2.6). -/

namespace Sys2Proof.Machine

/-! ### RESPONSE_ACCEPTED -/

section
variable {s : State} {it : Item} {rest : List Item} {x : Response}

/-- The responses held at the port once the head has been removed are taken by the new head. -/
def State.headRemoved (s : State) (rest : List Item) : State :=
  State.takeResponses s.path.held (s.withPath { s.path with tracking := rest })

/-- An offered response accepted is that of the head. -/
theorem exec_responseAccepted (ht : s.path.tracking = it :: rest) (hp : it.phase = .answering x) :
    exec .responseAccepted s = nextOf ((s.headRemoved rest).endWaitSlot.evaluateHead) := by
  simp only [exec, execResponseAccepted, ht, hp]
  rfl

/-- The requests issued are those of the items behind a head that answers. -/
theorem State.headRemoved_portsSound (hports : s.portsSound) (ht : s.path.tracking = it :: rest)
    (hp : it.phase = .answering x) : (s.headRemoved rest).portsSound := by
  refine State.takeResponses_portsSound _ _ ?_
  obtain ⟨-, hissued, -⟩ := hports
  have hit : ¬ it.awaitsMemory = true := by simp [Item.awaitsMemory_iff, hp]
  rw [ht, List.countP_cons_of_neg hit] at hissued
  exact hissued

/-- Out of WAIT-SLOT the new head is evaluated, and no more. -/
theorem exec_responseAccepted_other (ht : s.path.tracking = it :: rest) (hp : it.phase = .answering x)
    (hs : ∀ w, s.path.state ≠ .waitSlot w) : exec .responseAccepted s = nextOf (s.headRemoved rest) := by
  rw [exec_responseAccepted ht hp, State.endWaitSlot_other _ fun w => ?_, State.headRemoved, State.evaluateHead_takeResponses]
  rw [State.headRemoved, ne_eq, State.takeResponses_waitSlot]
  exact hs w

/-- In WAIT-SLOT the place is free, and the handling goes on. -/
theorem exec_responseAccepted_waitSlot (htracking : s.trackingSound) (hports : s.portsSound)
    (ht : s.path.tracking = it :: rest) (hp : it.phase = .answering x) {w : InHand} (hs : s.path.state = .waitSlot w) :
    exec .responseAccepted s = nextOf ((s.headRemoved rest).handle w) := by
  obtain ⟨hfull, hpre⟩ := s.trackingSound_full htracking hs
  rw [ht, List.length_cons] at hfull
  rw [ht, List.all_cons, Bool.and_eq_true] at hpre
  have hlen : (s.headRemoved rest).path.tracking.length = 7 := by
    rw [State.headRemoved, State.takeResponses_length _ _ hpre.2]
    simp only [State.withPath_fields]
    omega
  have hstate : (s.headRemoved rest).path.state = .waitSlot w := (State.takeResponses_waitSlot _ _ w).2 hs
  rw [exec_responseAccepted ht hp, State.endWaitSlot_free _ w hstate (by omega),
    State.evaluateHead_handle _ (s.headRemoved_portsSound hports ht hp) fun hnil => by simp [hnil] at hlen]

/-- With nothing held at the port and no LOCAL head, the item is removed. -/
theorem State.headRemoved_plain (hheld : s.path.held = []) (hl : ∀ st, rest.head?.map (·.cls) ≠ some (.local st)) :
    s.headRemoved rest = s.withPath { s.path with tracking := rest } := by
  rw [State.headRemoved, hheld, State.takeResponses_nil]
  simp only [State.withPath_withPath, State.withPath_fields, answerLocal_notLocal hl, ← hheld]

/-- A LOCAL head answers, and what is held at the port stays there. -/
theorem State.headRemoved_local (htracking : s.trackingSound) (ht : s.path.tracking = it :: rest) {head : Item}
    {more : List Item} {st : Status} (hr : rest = head :: more) (hc : head.cls = .local st) :
    s.headRemoved rest =
      s.withPath { s.path with tracking := { head with phase := .answering ⟨st, []⟩ } :: more } := by
  have hp : head.phase = .waiting := htracking.2.1 head (by simp [ht, hr])
  rw [State.headRemoved, State.takeResponses_kept _ _ (.inl ?_)]
  · simp only [State.withPath_withPath, State.withPath_fields, hr, answerLocal_local hc hp]
  · simp only [State.withPath_fields, hr, headAction, hp, hc]

end

/-! ### The responses held, as if they arrived now -/

/-- The path state outside WAIT-SLOT. -/
def leaveWaitSlot (p : PathState) : PathState :=
  match p with
  | .waitSlot _ => .idle
  | p           => p

/-- Another state than WAIT-SLOT stays. -/
theorem leaveWaitSlot_other {p : PathState} (h : ∀ w, p ≠ .waitSlot w) : leaveWaitSlot p = p := by
  cases p with
  | waitSlot w => exact absurd rfl (h w)
  | idle | preRead | claiming | hold => rfl

/-- The state out of WAIT-SLOT, with no GET-STATUS being executed. -/
def State.undisturbed (s : State) : State :=
  (s.withCmd { s.cmd with reading := none }).withPath { s.path with state := leaveWaitSlot s.path.state }

/-- WAIT-SLOT and a GET-STATUS play no part in the taking of responses. -/
theorem State.takeResponses_undisturbed (l : List Response) (s : State) :
    State.takeResponses l s.undisturbed = (State.takeResponses l s).undisturbed := by
  induction l generalizing s with
  | nil => rfl
  | cons r l ih =>
    have htracking : s.undisturbed.path.tracking = s.path.tracking := rfl
    cases h : headAction s.path.tracking with
    | unmatched =>
      rw [State.takeResponses_unmatched r l s h, State.takeResponses_unmatched r l _ (by rwa [htracking]), ← ih s.unmatched]
      rfl
    | preRead rest =>
      rw [State.takeResponses_preRead r l s h, State.takeResponses_preRead r l _ (by rwa [htracking]), ← ih (s.takePreRead r rest)]
      congr 1
      rcases hs : s.path.state <;> simp [State.takePreRead, State.undisturbed, State.makeClaim, leaveWaitSlot, hs] <;> rfl
    | forwarded it rest =>
      rw [State.takeResponses_forwarded r l s h, State.takeResponses_forwarded r l _ (by rwa [htracking])]
      rcases it with ⟨_ | ⟨_, _ | _⟩ | _ | _, _ | _, _, _, _, _⟩ <;> rcases r with ⟨_ | _, _⟩ <;> rfl
    | heldBack =>
      rw [State.takeResponses_heldBack r l s h, State.takeResponses_heldBack r l _ (by rwa [htracking])]
      rfl

/-- Responses that arrive one after another are taken as one run. -/
theorem execAll_downstreamResponse (r : Response) (l : List Response) (s : State) (hr : s.cmd.reading = none)
    (hs : ∀ w, s.path.state ≠ .waitSlot w) :
    execAll ((r :: l).map .downstreamResponse) s = .next (State.takeResponses (s.path.held ++ r :: l) s) := by
  induction l generalizing r s with
  | nil =>
    simp only [List.map_cons, List.map_nil, execAll]
    rw [exec_downstreamResponse r s fun w hw => absurd hw (hs w), nextOf_none _ (by rw [(State.takeResponses_state _ _).1, hr])]
  | cons r' l ih =>
    rw [List.map_cons, execAll, exec_downstreamResponse r s fun w hw => absurd hw (hs w),
      nextOf_none _ (by rw [(State.takeResponses_state _ _).1, hr])]
    simp only []
    rw [ih _ _ (by rw [(State.takeResponses_state _ _).1, hr]) fun w => by rw [ne_eq, State.takeResponses_waitSlot]; exact hs w,
      ← State.takeResponses_append, List.append_assoc]
    rfl

/-- The taking of the responses held by the new head, when they arrive one after another. -/
theorem State.headRemoved_arriving (s : State) (rest : List Item) (hheld : s.path.held ≠ []) :
    execAll (s.path.held.map .downstreamResponse)
      ((s.withPath { s.path with tracking := rest }).undisturbed.withPath
        { (s.withPath { s.path with tracking := rest }).undisturbed.path with held := [] }) =
      .next (s.headRemoved rest).undisturbed := by
  obtain ⟨r, l, h⟩ := List.exists_cons_of_ne_nil hheld
  rw [h, execAll_downstreamResponse r l _ rfl ?_, ← h]
  · rw [State.withPath_fields .. |>.1, List.nil_append, State.takeResponses_held, State.takeResponses_undisturbed]
    rfl
  · intro w
    rcases hs : s.path.state <;> simp [State.undisturbed, leaveWaitSlot, hs]

/-- Settles O33. -/
theorem acceptedResponseFreesThePlace : Obligations.AcceptedResponseFreesThePlace := by
  intro s htracking hports
  refine ⟨?_, fun hw => ?_⟩
  · intro it rest x ht hp removed arriving
    have harriving (hheld : s.path.held ≠ []) : arriving = .next (s.headRemoved rest).undisturbed := by
      rw [← s.headRemoved_arriving rest hheld]
      rcases hs : s.path.state <;> simp only [arriving, State.undisturbed, leaveWaitSlot, hs, State.withPath, State.withCmd]
    have hcmd : (s.headRemoved rest).cmd = s.cmd := (State.takeResponses_state _ _).1
    have hstate (w : InHand) : (s.headRemoved rest).path.state = .waitSlot w ↔ s.path.state = .waitSlot w :=
      State.takeResponses_waitSlot _ _ w
    refine ⟨fun hs => ⟨fun hheld hl => ?_, fun st head more hr hc => ?_, fun hheld hl t harr => ?_⟩,
      fun w hs => ⟨fun hheld hl => ?_, fun st head more hr hc => ?_, fun hheld hl t harr => ?_⟩⟩
    · rw [exec_responseAccepted_other ht hp hs, State.headRemoved_plain hheld hl]
      rfl
    · rw [exec_responseAccepted_other ht hp hs, State.headRemoved_local htracking ht hr hc]
      rfl
    · obtain rfl : (s.headRemoved rest).undisturbed = t := by simpa [harriving hheld] using harr
      rw [exec_responseAccepted_other ht hp hs, ← hcmd]
      congr 2
      simp only [State.undisturbed, leaveWaitSlot_other fun w h => hs w ((hstate w).1 h)]
      rfl
    · rw [exec_responseAccepted_waitSlot htracking hports ht hp hs, State.headRemoved_plain hheld hl]
      rfl
    · rw [exec_responseAccepted_waitSlot htracking hports ht hp hs, State.headRemoved_local htracking ht hr hc]
      rfl
    · obtain rfl : (s.headRemoved rest).undisturbed = t := by simpa [harriving hheld] using harr
      rw [exec_responseAccepted_waitSlot htracking hports ht hp hs, ← hcmd, ← (hstate w).2 hs]
      rfl
  · cases ht : s.path.tracking with
    | nil => simp only [exec, execResponseAccepted, ht]
    | cons it rest => simp only [exec, execResponseAccepted, ht, hw it (by rw [ht]; rfl)]

/-- A saturating counter stops at its largest value. -/
theorem satInc_eq_iff {w : Nat} (m : BitVec w) (hm : m = BitVec.allOnes w) : satInc m = m ∧ ∀ n, n ≠ m → satInc n = n + 1 := by
  subst hm
  exact ⟨if_pos rfl, fun n hn => if_neg hn⟩

/-- Settles O32: with the list empty nothing is held, and with LOCAL items alone the head answers. -/
theorem unmatchedResponseIsCounted : Obligations.UnmatchedResponseIsCounted := by
  intro r s htracking hports
  have hexec := exec_downstreamResponse r s (s.trackingSound_places htracking _)
  have hplace (h : s.path.tracking.length < 8) (w : InHand) : s.path.state ≠ .waitSlot w := fun hw => by
    have := (s.trackingSound_full htracking hw).1
    omega
  refine ⟨fun ht => ?_, fun hne hl => ?_, fun it x ht hp => ?_, fun it pre x y more q a ht hp hc hs hk hform hheld => ?_,
    satInc_eq_iff _ rfl, satInc_eq_iff _ rfl⟩
  · have hheld := State.portsSound_held hports ht
    rw [hexec, State.takeResponses_empty _ _ ht, hheld, ← ht, ← hheld]
    simp only [hheld]
    rfl
  · obtain ⟨it, rest, ht⟩ := List.exists_cons_of_ne_nil hne
    obtain ⟨st, hc⟩ := hl it (by simp [ht])
    obtain ⟨x, hp⟩ : ∃ x, it.phase = .answering x := by
      cases hp : it.phase with
      | waiting => simpa [ht, hc, hp] using hports.2.2
      | answering x => exact ⟨x, rfl⟩
    rw [hexec, State.takeResponses_answering _ _ ht hp]
    rfl
  · rw [exec_responseAccepted_other ht hp (hplace (by simp [ht])), State.headRemoved, State.takeResponses_empty _ _ rfl]
    rfl
  · have hpre : pre.phase = .waiting := htracking.2.1 pre (by simp [ht])
    rw [exec_responseAccepted_other ht hp (hplace (by simp [ht])), State.headRemoved, hheld,
      State.takeResponses_preRead y more _ (rest := []) (by simp [headAction, hpre, hc])]
    obtain ⟨q', a', hs', htake⟩ | ⟨hs', -⟩ := State.takePreRead_cases y [] (s.withPath { s.path with tracking := [pre] })
    · obtain ⟨rfl, rfl⟩ : q = q' ∧ a = a' := by simpa [hs] using hs'
      rw [htake, State.takeResponses_empty _ _ rfl]
      rcases y with ⟨_ | _, _⟩ <;> simp [recordOf, writeData, hk, hform, State.withPath]
    · exact absurd hs (hs' q a)

/-! ### HOLD (R35, R36) -/

/-- A report that waits is taken. -/
theorem exec_spaceFreedReport_waits {s : State} {n : Nat} (h : s.wires.spaceFreed = n + 1) :
    exec .spaceFreedReport s = nextOf (s.withWires { s.wires with spaceFreed := n }).repeatClaim := by
  simp [exec, execSpaceFreedReport, h]

/-- The claim of the request in HOLD, once answered. -/
theorem State.repeatClaim_hold {s : State} {r : Request} {a : Attributes} {body : RecordBody}
    (hs : s.path.state = .hold r a body) (hports : s.portsSound) :
    let c := s.claim (claimOf a body)
    (c.2 = .appended → s.repeatClaim =
      (c.1.withPath { s.path with stallTimer := none }).forward r (.forwarded a.entry true)) ∧
    (c.2 = .noSpace → s.repeatClaim = c.1) := by
  intro c
  have hpath : c.1.path = s.path := by simp [c]
  refine ⟨fun h => ?_, fun h => ?_⟩
  · simp only [State.repeatClaim, hs]
    rw [show (s.claim (claimOf a body)).2 = .appended from h]
    simp only []
    rw [State.evaluateHead_forward, ← hs, hpath]
    · rw [hpath]
      exact hports
    · exact nofun
  · simp only [State.repeatClaim, hs]
    rw [show (s.claim (claimOf a body)).2 = .noSpace from h]

/-- Out of HOLD there is no claim to repeat. -/
theorem State.repeatClaim_other {s : State} (h : ∀ r a body, s.path.state ≠ .hold r a body) : s.repeatClaim = s := by
  rcases hs : s.path.state
  case hold r a body => exact absurd hs (h r a body)
  all_goals simp only [State.repeatClaim, hs]

/-- The stall timer's expiry in HOLD. -/
theorem State.stallExpired_hold {s : State} {r : Request} {a : Attributes} {body : RecordBody}
    (hs : s.path.state = .hold r a body) (hports : s.portsSound) :
    s.stallExpired = ((s.lostRecordReport.setAlert stallFlag).withPath
      { s.path with stallTimer := none, stallExpiries := satInc s.path.stallExpiries }).forward r
        (.forwarded a.entry false) := by
  simp only [State.stallExpired, State.withPath_fields, hs]
  rw [State.evaluateHead_forward]
  · rfl
  · exact hports
  · exact nofun

/-- Settles O34: out of HOLD and before what is due the rows find nothing to do. -/
theorem holdEndsBySpaceOrExpiry : Obligations.HoldEndsBySpaceOrExpiry := by
  intro s hports
  refine ⟨?_, fun hs n hn => ?_, fun h => ?_, fun h => ?_⟩
  · intro r a body hs forwarded
    refine ⟨?_, fun ht => ?_⟩
    · intro n hn c
      have hhold := State.repeatClaim_hold (s := s.withWires { s.wires with spaceFreed := n }) hs hports
      refine ⟨fun h => ?_, fun h => ?_⟩
      · rw [exec_spaceFreedReport_waits hn, hhold.1 h]
        rfl
      · rw [exec_spaceFreedReport_waits hn, hhold.2 h]
        rfl
    · have hexec : exec .stallTimerExpiry s = nextOf s.stallExpired := by simp [exec, execStallTimerExpiry, ht]
      have hflags : (s.alr.flags ||| lossFlag) ||| stallFlag = s.alr.flags ||| 0b000011 := BitVec.or_assoc ..
      rw [hexec, State.stallExpired_hold hs hports, ← hflags]
      rfl
  · rw [exec_spaceFreedReport_waits hn, State.repeatClaim_other]
    · rfl
    · exact hs
  · simp [exec, execSpaceFreedReport, h]
  · simp [exec, execStallTimerExpiry, h]

end Sys2Proof.Machine
end

section
/-! PROOFS. The taking of a command of the recorder: the three checks before it, its length, and its reply (section 9.2). -/

namespace Sys2Proof.Machine

/-! ### What a GET-STATUS does not touch -/

/-- What the completion of a GET-STATUS neither reads nor changes: the body and the reports that wait, the silence timer, the
settle count and code, and the number of choices drawn. -/
structure Beside where
  handedOn     : Option Body
  frameReport  : Bool
  silenceTimer : Timer
  settleCount  : Nat
  settleCode   : Nat
  choices      : Nat
  retryReports : Nat

/-- The state with these in place of its own. -/
def State.beside (x : Beside) (s : State) : State :=
  (((s.withWires { s.wires with
    handedOn := x.handedOn, frameReport := x.frameReport, retryReports := x.retryReports }).withLctl
    { s.lctl with silenceTimer := x.silenceTimer }).withLrx
    { s.lrx with settleCount := x.settleCount, settleCode := x.settleCode }).withChoices x.choices

/-- A claim has nothing to do with them. -/
theorem State.claim_beside (x : Beside) (c : Claim) (s : State) :
    (s.beside x).claim c = (((s.claim c).1).beside x, (s.claim c).2) := by
  rw [State.claim_eq, State.claim_eq]
  simp only [State.beside, State.withWires_fields, State.withLctl_fields, State.withLrx_fields, State.withChoices_fields]
  split <;> rfl

/-- Nor have the claims of some claimants, taken one after another. -/
theorem State.takeClaimsOf_beside (x : Beside) (p : Claimant → Bool) (s : State) :
    (s.beside x).takeClaimsOf p = (s.takeClaimsOf p).beside x := by
  have hfold (l : List WaitingClaim) (t : State) :
      l.foldl (fun t w => (t.claim w.claim).1) (t.beside x) = (l.foldl (fun t w => (t.claim w.claim).1) t).beside x := by
    induction l generalizing t with
    | nil => rfl
    | cons w l ih => rw [List.foldl_cons, List.foldl_cons, State.claim_beside, ih]
  exact hfold (s.wires.claims.filter fun w => p w.claimant)
    (s.withWires { s.wires with claims := s.wires.claims.filter fun w => !p w.claimant })

/-- Nor has the answer to the claim for the request in hand. -/
theorem State.answerClaim_beside (x : Beside) (s : State) : (s.beside x).answerClaim = s.answerClaim.beside x := by
  have hpath : (s.beside x).path = s.path := rfl
  unfold State.answerClaim
  rw [hpath]
  rcases s.path.state with _ | _ | _ | ⟨r, a, body⟩ | _
  case claiming =>
    simp only [State.claimThenForward, State.claim_beside]
    cases (s.claim (claimOf a body)).2 <;> cases a.lossPolicy <;> rfl
  all_goals rfl

/-- Nor has the path controller when it makes ready to answer. -/
theorem State.settlePath_beside (x : Beside) (s : State) : (s.beside x).settlePath = s.settlePath.beside x := by
  have hpath : (s.beside x).path = s.path := rfl
  unfold State.settlePath State.takePathClaims
  rw [hpath]
  rcases s.path.state with _ | _ | _ | _ | _
  case claiming => rw [State.takeClaimsOf_beside, State.answerClaim_beside]
  all_goals rfl

/-- No owner reads them. -/
theorem State.answer_beside (x : Beside) (s : State) (o : Config.StatusOwner) : (s.beside x).answer o = s.answer o := by
  cases o <;> rfl

/-- The owners that answer leave them alone. -/
theorem State.letAnswer_beside (x : Beside) (of : Config.StatusOwner → Bool) (r : StatusReading) (s : State) :
    (s.beside x).letAnswer of r = (s.letAnswer of r).beside x := by
  simp only [State.letAnswer, State.answer_beside]
  cases r.clear with
  | false => rfl
  | true =>
    simp only [if_true, State.clearCounters_eq]
    cases of .lrx && (r.answerOf .lrx).isNone <;> rfl

/-- The reply formed leaves them alone. -/
theorem State.giveReply_beside (x : Beside) (r : Reply) (s : State) : (s.beside x).giveReply r = (s.giveReply r).beside x := by
  rw [State.giveReply_eq, State.giveReply_eq]
  rfl

/-- The completion of a GET-STATUS has nothing to do with them. -/
theorem State.finishStatus_beside (x : Beside) (s : State) : (s.beside x).finishStatus = s.finishStatus.beside x := by
  cases h : s.cmd.reading with
  | none => rw [State.finishStatus_none s h, State.finishStatus_none (s.beside x) h]
  | some r =>
    rw [State.finishStatus_some s r h, State.finishStatus_some (s.beside x) r h]
    cases (r.answerOf .path).isNone <;>
      simp only [State.settlePath_beside, State.letAnswer_beside, State.answer_beside, State.giveReply_beside, if_true,
        Bool.false_eq_true, if_false]

/-- What the state holds of them. -/
def State.ownBeside (s : State) : Beside :=
  ⟨s.wires.handedOn, s.wires.frameReport, s.lctl.silenceTimer, s.lrx.settleCount, s.lrx.settleCode,
    s.choices, s.wires.retryReports⟩

/-- The completion of a GET-STATUS leaves them as they are. -/
theorem State.finishStatus_ownBeside (s : State) : s.finishStatus.beside s.ownBeside = s.finishStatus :=
  (State.finishStatus_beside s.ownBeside s).symm

/-- The body that waits has nothing to do with the completion of a GET-STATUS. -/
theorem State.finishStatus_handedOff (s : State) : s.handedOff.finishStatus = s.finishStatus.handedOff :=
  calc s.handedOff.finishStatus
    _ = (s.finishStatus.beside s.ownBeside).handedOff := State.finishStatus_beside { s.ownBeside with handedOn := none } s
    _ = s.finishStatus.handedOff := by rw [State.finishStatus_ownBeside]

/-! ### The thirteen rows -/

/-- Every row of the recorder is the command that its code names, taken from the queue of bodies. -/
theorem exec_command {i : Instr} {tag code : Byte} {args : List Byte} (h : commandFields i = some (tag, code, args))
    (s : State) : exec i s = nextOf (s.takeCommand tag code args (runCode tag code args)) := by
  cases i <;> simp only [commandFields, Option.some.injEq, Prod.mk.injEq, reduceCtorEq] at h <;>
    obtain ⟨rfl, rfl, rfl⟩ := h <;> rfl

section
variable {s : State} {tag code : Byte} {args : List Byte}

/-- With no GET-STATUS being executed, the command that is next is examined once it no longer waits. -/
theorem State.takeCommand_ready (run : State → Executed) (hn : s.isNext (.command tag code args))
    (hr : s.cmd.reading = none) : s.takeCommand tag code args run = s.handedOff.examine tag code run := by
  rw [State.takeCommand, State.takeHanded_next _ _ _ hn, State.intake, State.finishStatus_none s.handedOff hr]

/-- The unit is on line while the link is UP or it has not taken the entry to DOWN. -/
theorem State.offLine_eq_false (h : s.lctl.link = .up ∨ s.wires.falling.cmd = true) : s.offLine = false := by
  rw [Bool.eq_false_iff, ne_eq, State.offLine_iff]
  rintro ⟨hlink, hfall⟩
  exact h.elim hlink (by simp [hfall])

/-- A command that is examined and answered whole: its reply is stored, queued, and the unit is READY. -/
theorem exec_command_answered {i : Instr} (hi : commandFields i = some (tag, code, args)) (ha : s.acceptsTag tag)
    (hn : s.isNext (.command tag code args)) {t : State} {result : Result} {data : List Byte}
    (hrun : runCode tag code args s.handedOff = done t result data) (hlink : t.lctl.link = s.lctl.link)
    (hfall : t.wires.falling = s.wires.falling) : exec i s = .next (t.replied tag code result data) := by
  have hon : t.offLine = false := State.offLine_eq_false (by rw [hlink, hfall]; exact ha.1)
  rw [exec_command hi, State.takeCommand_accepted _ _ _ _ s hn ha, hrun, State.formReply_done,
    State.giveReply_onLine _ _ hon, nextOf_none _ rfl]

end

/-- The state in which a command is run: its body no longer waits, and the unit is EXECUTING. -/
def State.running (s : State) : State := s.handedOff.withCmd { s.cmd with execState := .executing }

/-- Settles O49: what is discarded is decided before anything else. -/
theorem commandsAreDiscarded : Obligations.CommandsAreDiscarded := by
  intro i tag code args s hi hn u
  refine ⟨fun hr => ?_, fun hr hlink hfall => ?_, fun hr hon hfull => ?_⟩
  · obtain ⟨-, -, -, -, -, -, -, -, -, -, hreading⟩ := s.finishStatus_fields
    have hhanded : s.finishStatus.wires.handedOn = s.wires.handedOn := by rw [← State.finishStatus_ownBeside]; rfl
    have hn' : s.finishStatus.isNext (.command tag code args) := by rw [State.isNext, hhanded]; exact hn
    refine ⟨?_, hreading⟩
    rw [exec_command hi, exec_command hi, State.takeCommand_ready _ hn' hreading, State.takeCommand,
      State.takeHanded_next _ _ _ hn, State.intake, State.finishStatus_handedOff]
  · have hoff : s.handedOff.offLine = true := (State.offLine_iff _).2 ⟨hlink, hfall⟩
    rw [exec_command hi, State.takeCommand_ready _ hn hr, State.examine, if_pos hoff]
    exact nextOf_none _ hr
  · have hoff : s.handedOff.offLine = false := State.offLine_eq_false hon
    have hplaces : s.handedOff.cmd.replies.length ≥ Config.replyPlaces := hfull
    rw [exec_command hi, State.takeCommand_ready _ hn hr, State.examine, hoff, if_neg (by simp), if_pos hplaces]
    exact nextOf_none _ hr

/-- Settles O50: the stored reply is found before the code is looked at. -/
theorem duplicatesAreAnsweredFromMemory : Obligations.DuplicatesAreAnsweredFromMemory := by
  refine ⟨fun i tag code args r s hi hn hr hon hroom hlast htag => ?_, fun _ => rfl⟩
  have hoff : s.handedOff.offLine = false := State.offLine_eq_false hon
  have hstored : s.handedOff.cmd.storedFor tag = some r := by simp [CommandUnit.storedFor, hlast, htag]
  have hplaces : ¬ s.handedOff.cmd.replies.length ≥ Config.replyPlaces := Nat.not_le.2 hroom
  rw [exec_command hi, State.takeCommand_ready _ hn hr, State.examine, hoff, if_neg (by simp), if_neg hplaces, hstored]
  simp only [State.queueReply, hoff, Bool.false_eq_true, if_false]
  exact nextOf_none _ hr

/-- The number of argument bytes that each known code asks for (Table 6-15). -/
theorem runCode_eq_withLength {code : Byte} {n : Nat}
    (h : (code, n) ∈ ([(0x01, 1), (0x02, 18), (0x03, 0), (0x04, 1), (0x05, 5), (0x06, 1), (0x07, 1), (0x08, 0), (0x09, 3),
      (0x0A, 0), (0x0B, 0), (0x0C, 0)] : List (Byte × Nat))) (tag : Byte) (args : List Byte) :
    ∃ run, runCode tag code args = withLength n args run := by
  simp only [List.mem_cons, Prod.mk.injEq, List.not_mem_nil, or_false] at h
  rcases h with h | h | h | h | h | h | h | h | h | h | h | h <;> obtain ⟨rfl, rfl⟩ := h <;> exact ⟨_, rfl⟩

/-- A code outside 01h to 0Ch names no command. -/
theorem runCode_unknown {code : Byte} (h : code = 0x00 ∨ 0x0C < code) (tag : Byte) (args : List Byte) :
    runCode tag code args = fun s => done s .badCommand [] := by
  have hlt : (0x0C : Byte) < code ↔ 12 < code.toNat := BitVec.lt_def
  have hcode : code.toNat = 0 ∨ 12 < code.toNat := h.imp (fun h => by rw [h]; rfl) hlt.1
  unfold runCode
  split
  case h_13 => rfl
  all_goals omega

/-- Settles O51. -/
theorem wrongCommandsAreAnswered : Obligations.WrongCommandsAreAnswered := by
  intro tag code args s ha hn u
  refine ⟨fun hcode => ?_, fun i n hi hmem hlen => ?_⟩
  · exact exec_command_answered rfl ha hn (by rw [runCode_unknown hcode]; rfl) rfl rfl
  · obtain ⟨run, hrun⟩ := runCode_eq_withLength hmem tag args
    exact exec_command_answered hi ha hn (by rw [hrun, withLength_wrong _ _ _ _ hlen]; rfl) rfl rfl

end Sys2Proof.Machine
end

section
/-! PROOFS. The commands of the watch table, of the alerts, of the journal and of freeze (section 9.4). -/

namespace Sys2Proof.Machine

section
variable {s : State} {tag code : Byte} {args : List Byte}

/-- A command with the right number of argument bytes, executed whole: its reply is stored, queued, and the unit is READY. -/
theorem exec_command_run {i : Instr} {n : Nat} {run : State → Executed} (ha : s.acceptsTag tag)
    (hi : commandFields i = some (tag, code, args)) (hcode : runCode tag code args = withLength n args run)
    (hlen : args.length = n) (hn : s.isNext (.command tag code args)) {t : State} {result : Result} {data : List Byte}
    (hrun : run s.running = done t result data) (hlink : t.lctl.link = s.lctl.link)
    (hfall : t.wires.falling = s.wires.falling) : exec i s = .next (t.replied tag code result data) :=
  exec_command_answered hi ha hn (by rw [hcode, withLength_right _ _ _ _ hlen]; exact hrun) hlink hfall

end

/-! ### Watch table commands (R157, R158) -/

/-- Two halves of two bytes are four bytes, one after another. -/
theorem append_four (a b c d : Byte) :
    (((a ++ b : BitVec 16) ++ (c ++ d : BitVec 16)) : BitVec 32) = (a ++ b ++ c ++ d : BitVec (8 + 8 + 8 + 8)) := by
  rw [BitVec.append_assoc (x₁ := a ++ b)]
  exact (BitVec.cast_eq _ _).symm

/-- A word is its four bytes, one after another. -/
theorem argWord_eq (args : List Byte) (i : Nat) :
    argWord args i = argByte args i ++ argByte args (i + 1) ++ argByte args (i + 2) ++ argByte args (i + 3) :=
  append_four ..

/-- Check 2 of Table 1-7 in words of the numbers. -/
theorem rangeGood_iff (base limit : Addr) :
    rangeGood base limit = true ↔ base.toNat % 4 = 0 ∧ (limit.toNat + 1) % 4 = 0 ∧ base.toNat ≤ limit.toNat := by
  simp [rangeGood, BitVec.le_def, and_assoc]

/-- A byte that codes a flag is that of the flag it codes. -/
theorem flagByte_of_le : ∀ b : Byte, b ≤ 0x01 → b = flagByte (decide (b = 0x01)) := by decide

/-- The bytes of kinds. -/
theorem kindsByte_of_le : ∀ b : Byte, b ≤ 0x02 →
    b = kindsByte (if b = 0x00 then .writes else if b = 0x01 then .reads else .both) := by decide

/-- The bytes of a write form. -/
theorem writeFormByte_of_le : ∀ b : Byte, b ≤ 0x03 → b = writeFormByte
    (if b = 0x00 then .none else if b = 0x01 then .address else if b = 0x02 then .after else .both) := by decide

/-- The bytes of a read form. -/
theorem readFormByte_of_le : ∀ b : Byte, b ≤ 0x01 → b = readFormByte (if b = 0x00 then .none else .address) := by decide

/-- The bytes of a loss policy. -/
theorem lossPolicyByte_of_le : ∀ b : Byte, b ≤ 0x01 → b = lossPolicyByte (if b = 0x00 then .drop else .hold) := by decide

/-- The bytes of a refusal response. -/
theorem refuseByte_of_le : ∀ b : Byte, b ≤ 0x01 → b = refuseByte (if b = 0x00 then .error else .silent) := by decide

/-- The byte of a flag is 00h or 01h. -/
theorem flagByte_le (v : Bool) : flagByte v ≤ 0x01 := by cases v <;> decide

/-- The coded bytes of SET_ENTRY hold codes of their sets exactly when they code an entry (check 3 of Table 1-7). -/
theorem exists_entryOfArgs_iff (args : List Byte) :
    (∃ e, entryOfArgs args = some e) ↔ argByte args 1 ≤ 0x01 ∧ argByte args 10 ≤ 0x02 ∧ argByte args 12 ≤ 0x03 ∧
      argByte args 13 ≤ 0x01 ∧ argByte args 14 ≤ 0x01 ∧ argByte args 15 ≤ 0x01 ∧ argByte args 16 ≤ 0x01 ∧
      argByte args 17 ≤ 0x01 := by
  constructor
  · rintro ⟨e, he⟩
    obtain ⟨h1, -, -, h10, -, h12, h13, h14, h15, h16, h17, -⟩ := (entryOfArgs_eq_some_iff args e).1 he
    rw [h1, h10, h12, h13, h14, h15, h16, h17]
    refine ⟨flagByte_le _, ?_, ?_, ?_, ?_, flagByte_le _, ?_, flagByte_le _⟩
    · cases e.kinds <;> decide
    · cases e.writeForm <;> decide
    · cases e.readForm <;> decide
    · cases e.lossPolicy <;> decide
    · cases e.refusal <;> decide
  · rintro ⟨h1, h10, h12, h13, h14, h15, h16, h17⟩
    exact ⟨⟨_, argWord args 2, argWord args 6, _, _, _, _, _, _, _, _, _, 0⟩, (entryOfArgs_eq_some_iff args _).2
      ⟨flagByte_of_le _ h1, rfl, rfl, kindsByte_of_le _ h10, (halves_append _).symm, writeFormByte_of_le _ h12,
        readFormByte_of_le _ h13, lossPolicyByte_of_le _ h14, flagByte_of_le _ h15, refuseByte_of_le _ h16,
        flagByte_of_le _ h17, rfl⟩⟩

/-- Settles O52: GET_ENTRY looks the entry up, SET_ENTRY goes by its checks in order. -/
theorem entriesAreReadAndWritten : Obligations.EntriesAreReadAndWritten := by
  refine ⟨?_, fun tag args s ha hn hlen => ?_⟩
  · intro tag index s ha hn u
    refine ⟨fun e he => ?_, fun hindex => ?_⟩
    · refine exec_command_run (t := s.running) ha rfl rfl rfl hn ?_ rfl rfl
      simp only [runGetEntry, argByte, List.getD_cons_zero]
      rw [show s.running.wtab = s.wtab from rfl, he]
    · refine exec_command_run (t := s.running) ha rfl rfl rfl hn ?_ rfl rfl
      have hnone : s.wtab.entries[index.toNat]? = none := Vector.getElem?_eq_none hindex
      simp only [runGetEntry, argByte, List.getD_cons_zero]
      rw [show s.running.wtab = s.wtab from rfl, hnone]
  · intro u arg index base limit aligned coded written
    have hrange : rangeGood (argWord args 2) (argWord args 6) = true ↔ aligned := by
      rw [rangeGood_iff, argWord_eq, argWord_eq]
      exact Iff.rfl
    have hcoded : (∃ e, entryOfArgs args = some e) ↔ coded := exists_entryOfArgs_iff args
    have hrun {w : WatchTable} {result : Result} (hset : s.wtab.setEntry args = (w, result)) :
        exec (.setEntry tag args) s = .next (({ u with wtab := w } : State).replied tag 0x02 result []) := by
      refine exec_command_run (t := s.running.withWtab w) ha rfl rfl hlen hn ?_ rfl rfl
      rw [runSetEntry, show s.running.wtab = s.wtab from rfl, hset]
    obtain ⟨hi, hset⟩ | ⟨hi, hr, hset⟩ | ⟨hi, hr, ⟨he, hset⟩ | ⟨e, he, hset⟩⟩ := s.wtab.setEntry_cases args
    · exact ⟨fun _ => hrun hset, fun h => absurd h (Nat.not_le.2 hi), fun h => absurd h (Nat.not_le.2 hi),
        fun h => absurd h (Nat.not_le.2 hi)⟩
    · have hna : ¬ aligned := fun h => by simp [hrange.2 h] at hr
      exact ⟨fun h => absurd hi (Nat.not_le.2 h), fun _ _ => hrun hset, fun _ h => absurd h hna, fun _ h => absurd h hna⟩
    · have ha := hrange.1 hr
      have hnc : ¬ coded := fun h => by obtain ⟨e, h⟩ := hcoded.2 h; simp [he] at h
      exact ⟨fun h => absurd hi (Nat.not_le.2 h), fun _ h => absurd ha h, fun _ _ _ => hrun hset, fun _ _ h => absurd h hnc⟩
    · have ha := hrange.1 hr
      have hc : coded := hcoded.1 ⟨e, he⟩
      refine ⟨fun h => absurd hi (Nat.not_le.2 h), fun _ h => absurd ha h, fun _ _ h => absurd hc h, fun _ _ _ => ?_⟩
      rw [hrun hset]
      have hew : entryOfArgs args = some written := by
        obtain ⟨h1, h10, h12, h13, h14, h15, h16, h17⟩ := hc
        exact (entryOfArgs_eq_some_iff args _).2 ⟨flagByte_of_le _ h1, argWord_eq args 2, argWord_eq args 6,
          kindsByte_of_le _ h10, (halves_append _).symm, writeFormByte_of_le _ h12, readFormByte_of_le _ h13,
          lossPolicyByte_of_le _ h14, flagByte_of_le _ h15, refuseByte_of_le _ h16, flagByte_of_le _ h17, rfl⟩
      obtain rfl : e = written := Option.some.inj (he.symm.trans hew)
      rfl

/-- Settles O53: no entry of the cleared table is valid, so none qualifies. -/
theorem clearTableKeepsOtherFields : Obligations.ClearTableKeepsOtherFields := by
  intro tag s ha hn
  refine ⟨s.wtab.clear, fun k => ?_, fun r => ?_, ?_⟩
  · simp [WatchTable.clear]
  · rw [WatchTable.governing_eq_none_iff]
    intro j d hd
    obtain ⟨e, -, rfl⟩ : ∃ e, s.wtab.entries[j]? = some e ∧ { e with valid := false, hitCount := 0 } = d := by
      simpa [WatchTable.clear] using hd
    simp [WatchEntry.qualifies]
  · exact exec_command_run (t := s.running.withWtab s.wtab.clear) ha rfl rfl rfl hn rfl rfl rfl

/-! ### Alerts (R162, R171, R172) -/

/-- Settles O56. -/
theorem alertsAreClearedByMask : Obligations.AlertsAreClearedByMask := by
  refine ⟨fun tag mask s ha hn => ⟨s.alr.flags &&& ~~~(mask.extractLsb' 0 6), fun i hi => ?_, ?_⟩, fun s => ?_⟩
  · simp [hi]
  · exact exec_command_run (t := s.running.withAlr _) ha rfl rfl rfl hn rfl rfl rfl
  · rw [State.alertLow, bne_iff_ne, ne_eq, BitVec.eq_of_getLsbD_eq_iff]
    simp

/-! ### Journal commands (R163 to R165) -/

/-- Settles O57. -/
theorem flushClosesTheOpenFrame : Obligations.FlushClosesTheOpenFrame := by
  intro tag s ha hn u
  refine ⟨fun f hf => ?_, fun hf => ?_⟩
  · rw [exec_command_run (t := s.running.withJctl (s.jctl.closeOpen .flush)) ha rfl rfl rfl hn ?_ rfl rfl,
      Journal.closeOpen_some _ hf]
    · rfl
    · simp only [runFlush, show s.running.jctl = s.jctl from rfl, hf]
  · rw [exec_command_run (t := s.running) ha rfl rfl rfl hn ?_ rfl rfl]
    · rfl
    · simp only [runFlush, show s.running.jctl = s.jctl from rfl, hf]

/-- Settles O58: a close byte that codes no flag claims nothing. -/
theorem markClaimsARecord : Obligations.MarkClaimsARecord := by
  intro tag high low close s ha hn u
  have hrun (on : Bool) (hc : flagOf close = some on) :
      let c := u.claim { body := .mark .recorder (high ++ low), policy := .drop, close := if on then .mark else .none }
      exec (.mark tag [high, low, close]) s =
        .next (c.1.replied tag 0x09 .ok [if c.2 = .appended then 0x01 else 0x00]) := by
    let c := s.running.claim { body := .mark .recorder (high ++ low), policy := .drop, close := if on then .mark else .none }
    have hlctl : c.1.lctl = s.lctl := by simp [c, State.running]
    have hwires : c.1.wires = s.handedOff.wires := by simp [c, State.running]
    rw [exec_command_run (t := c.1) (result := .ok) (data := [if c.2 = .appended then 0x01 else 0x00]) ha rfl rfl rfl hn ?_
      (by rw [hlctl]) (by rw [hwires]; rfl)]
    · simp only [c, State.claim_literal]
      rfl
    · have harg : argByte [high, low, close] 2 = close := rfl
      simp only [runMark, harg, hc]
      rw [show argHalf [high, low, close] 0 = high ++ low from rfl]
      simp only [markCommandClaim]
      cases c.2 <;> rfl
  refine ⟨?_, fun h0 h1 => ?_⟩
  · rintro (rfl | rfl)
    · exact hrun false rfl
    · exact hrun true rfl
  · refine exec_command_run (t := s.running) ha rfl rfl rfl hn ?_ rfl rfl
    have hflag : flagOf close = none := by rw [flagOf, if_neg h0, if_neg h1]
    simp only [runMark, show argByte [high, low, close] 2 = close from rfl, hflag]

/-- The abort of a SENDING body is that of the JOURNAL body in progress. -/
theorem State.abortSending_abortedLine {s : State} (h : s.bodyMatchesFrame) : s.abortSending = s.withLtx s.abortedLine := by
  rw [State.abortSending_eq]
  unfold State.bodyMatchesFrame at h
  rcases hb : s.ltx.body with _ | ⟨⟨seq⟩ | _ | _, bytes⟩ <;> rw [hb] at h
  case some.journal =>
    rw [h.1]
    simp only [LinkTransmitter.abortJournal, LinkTransmitter.abortBody, State.abortedLine, LinkTransmitter.inJournal, hb,
      if_true]
    rfl
  all_goals
    cases s.jctl.sendingSeq <;>
      simp [LinkTransmitter.abortJournal, State.abortedLine, LinkTransmitter.inJournal, hb]

/-- Settles O60. -/
theorem restartEmptiesTheJournal : Obligations.RestartEmptiesTheJournal := by
  intro tag s ha hn hbody u
  have habort : s.running.abortSending = s.running.withLtx s.abortedLine := State.abortSending_abortedLine hbody
  have hrestart : s.running.restartJournal = (((s.running.withLtx s.abortedLine).withJctl s.jctl.restart).withDlv
      { s.dlv with ackTimer := none }).withWires
        { s.handedOff.wires with spaceFreed := s.wires.spaceFreed + if s.path.inHold then 1 else 0 } := by
    rw [State.restartJournal, habort, State.sendSpaceFreed_eq]
    rfl
  rw [exec_command_run (t := s.running.restartJournal) ha rfl rfl rfl hn rfl (by rw [hrestart]; rfl) (by rw [hrestart]; rfl),
    hrestart]
  rfl

/-! ### Freeze commands (R97 to R99) -/

/-- While the effective freeze state stays nothing follows. -/
theorem State.freezeChanged_same {before : Bool} {cause : FreezeCause} {s : State} (h : s.frzu.effective = before) :
    s.freezeChanged before cause = s := by
  simp [State.freezeChanged, h]

/-- When it turns on a record is claimed and the alert is set. -/
theorem State.freezeChanged_on {cause : FreezeCause} {s : State} (h : s.frzu.effective = true) :
    s.freezeChanged false cause =
      (s.postClaim .freezeUnit { body := .freeze true cause, policy := .drop, close := .none }).setAlert freezeFlag := by
  simp [State.freezeChanged, h]

/-- When it turns off a record is claimed. -/
theorem State.freezeChanged_off {cause : FreezeCause} {s : State} (h : s.frzu.effective = false) :
    s.freezeChanged true cause =
      s.postClaim .freezeUnit { body := .freeze false cause, policy := .drop, close := .none } := by
  simp [State.freezeChanged, h]

/-- Settles O59: the effective state changes exactly where pin freeze is off and command freeze changes. -/
theorem freezeAndThawAreTaken : Obligations.FreezeAndThawAreTaken := by
  intro tag s ha u claim
  have heffective : ({ s.frzu with commandFreeze := false } : FreezeUnit).effective = s.frzu.filter.level := rfl
  have hfreeze {t : State} (h : s.running.setCommandFreeze true = t) (hn : s.isNext (.command tag 0x0A []))
      (hl : t.lctl.link = s.lctl.link) (hf : t.wires.falling = s.wires.falling) :
      exec (.freeze tag []) s = .next (t.replied tag 0x0A .ok []) :=
    exec_command_run ha rfl rfl rfl hn (by rw [runFreeze, h]) hl hf
  have hthaw {t : State} (h : s.running.setCommandFreeze false = t) (hn : s.isNext (.command tag 0x0B []))
      (hl : t.lctl.link = s.lctl.link) (hf : t.wires.falling = s.wires.falling) :
      exec (.thaw tag []) s = .next (t.replied tag 0x0B (if s.frzu.filter.level then .pinHeld else .ok) []) :=
    exec_command_run ha rfl rfl rfl hn (by rw [runThaw, h]; rfl) hl hf
  have hset (on before : Bool) (h : s.frzu.effective = before) : s.running.setCommandFreeze on =
      (s.running.withFrzu { s.frzu with commandFreeze := on }).freezeChanged before .command := by rw [← h]; rfl
  refine ⟨fun hn hc hp => ?_, fun hn h => ?_, fun hn hp hc => ?_, fun hn hp hc => ?_, fun hn hp => ?_⟩
  · have hoff : s.frzu.effective = false := by simp [FreezeUnit.effective, FreezeUnit.pinFreeze, hc, hp]
    rw [hfreeze ((hset true _ hoff).trans (State.freezeChanged_on rfl)) hn rfl rfl]
    rfl
  · have hon : s.frzu.effective = true := by simpa [FreezeUnit.effective, FreezeUnit.pinFreeze] using h
    rw [hfreeze ((hset true _ hon).trans (State.freezeChanged_same rfl)) hn rfl rfl]
    rfl
  · have hon : s.frzu.effective = true := by simp [FreezeUnit.effective, hc]
    rw [hthaw ((hset false _ hon).trans (State.freezeChanged_off (heffective.trans hp))) hn rfl rfl, hp]
    rfl
  · have hoff : s.frzu.effective = false := by simp [FreezeUnit.effective, FreezeUnit.pinFreeze, hc, hp]
    have hsame : ({ s.frzu with commandFreeze := false } : FreezeUnit) = s.frzu := by rw [← hc]
    rw [hthaw ((hset false _ hoff).trans (State.freezeChanged_same (heffective.trans hp))) hn rfl rfl, hp, hsame]
    rfl
  · have hon : s.frzu.effective = true := by simp [FreezeUnit.effective, FreezeUnit.pinFreeze, hp]
    rw [hthaw ((hset false _ hon).trans (State.freezeChanged_same (heffective.trans hp))) hn rfl rfl, hp]
    rfl

end Sys2Proof.Machine
end

section
/-! PROOFS. The rows that act within one block: the input filter, the idle-close and hello timers, and the receiver's byte
(sections 5.2, 4.5, 7.3, 6.3). -/

namespace Sys2Proof.Machine

/-! ### The input filter (R90, R91) -/

/-- A sample equal to the level returns the count to 0. -/
theorem filterSample_same (time : Nat) (f : Filter) : filterSample time f.level f = ({ f with disagreement := 0 }, none) := by
  simp [filterSample]

/-- A differing sample before the last of the run is counted. -/
theorem filterSample_counted {time : Nat} {f : Filter} (h : f.disagreement + 1 < time) :
    filterSample time (!f.level) f = ({ f with disagreement := f.disagreement + 1 }, none) := by
  simp [filterSample, Nat.not_le.2 h]

/-- The last differing sample of the run changes the level. -/
theorem filterSample_changed {time : Nat} {f : Filter} (h : time ≤ f.disagreement + 1) :
    filterSample time (!f.level) f = (⟨!f.level, 0⟩, some (!f.level)) := by
  simp [filterSample, h]

/-- Settles O37: off asks for the run of one sample, as a filter time of 1 does. -/
theorem filterNeedsAFullRun : Obligations.FilterNeedsAFullRun := by
  intro code f hcode time run counted differing
  have hpos : 1 ≤ run := by
    dsimp only [run]
    split
    · exact Nat.le_refl 1
    · exact Nat.one_le_two_pow
  have htime : time ≤ run ∧ (1 < run → time = run) := by
    dsimp only [time, run, filterTime]
    split <;> omega
  have hcounted (n : Nat) (h : n + 1 < run) : differing (counted n) = (counted (n + 1), none) :=
    filterSample_counted (f := counted n) (by rw [htime.2 (by omega)]; exact h)
  refine ⟨fun n m h => ?_, hcounted, fun n h => filterSample_changed (f := counted n) (by exact htime.1.trans h),
    fun n => filterSample_same time (counted n)⟩
  induction m generalizing n with
  | zero => rfl
  | succ m ih =>
    rw [Function.iterate_succ_apply, hcounted n (by omega), ih (n + 1) (by omega)]
    congr 1
    omega

/-! ### The idle-close and the hello timer (R73, R122) -/

/-- Settles O38. -/
theorem idleCloseAndHelloTimersExpire : Obligations.IdleCloseAndHelloTimersExpire := by
  refine fun s => ⟨fun f ht hf => ?_, fun h => ?_, fun ht hl => ?_, fun h => ?_⟩
  · have hexec : exec .idleCloseTimerExpiry s = nextOf s.idleExpired := by simp [exec, execIdleCloseTimerExpiry, ht]
    rw [hexec, State.idleExpired, Journal.closeOpen_some]
    · rfl
    · exact hf
  · simp [exec, execIdleCloseTimerExpiry, h]
  · simp only [exec, execHelloTimerExpiry, ht, expiryDue_iff, if_true, State.helloExpired, hl]
    rfl
  · simp [exec, execHelloTimerExpiry, h]

/-! ### One downlink byte (R108) -/

section
variable {s : State} {b : Byte}

/-- A byte that ends no body in COLLECTING and makes no settle report is taken by its decoding state. -/
theorem exec_downlinkByte_plain (hends : s.lrx.endsBody b = false) (hsettles : s.lrx.settles b = false) :
    exec (.downlinkByte b) s = nextOf (s.takeByte s.lctl.link b) := by
  simp [exec, execDownlinkByte, hends, hsettles]

/-- A byte other than the delimiter ends no body. -/
theorem LinkReceiver.endsBody_other (x : LinkReceiver) (h : b ≠ 0xC3) : x.endsBody b = false := by
  have hb : (b == Config.delimiter) = false := beq_eq_false_iff_ne.2 h
  rcases x with ⟨_ | _ | _ | _ | _, _, _, _⟩ <;> simp [LinkReceiver.endsBody, hb]

/-- Nor does it settle the line. -/
theorem LinkReceiver.settles_other (x : LinkReceiver) (h : b ≠ 0xC3) : x.settles b = false := by
  have hb : (b == Config.delimiter) = false := beq_eq_false_iff_ne.2 h
  rcases x with ⟨_ | _ | _ | _ | _, _, _, _⟩ <;> simp [LinkReceiver.settles, hb]

/-- A body byte is collected while there is a place for it. -/
theorem collect_eq (bytes : List Byte) (v : Byte) :
    collect bytes v = if bytes.length < 64 then .collecting (bytes ++ [v]) else .discarding .length := by
  have hplaces : Config.collectPlaces = 64 := rfl
  unfold collect
  rw [hplaces]
  by_cases h : bytes.length < 64
  · rw [if_pos h, if_neg (by omega)]
  · rw [if_neg h, if_pos (by omega)]

/-- The pair of an escape and its second byte stands for a reserved byte. -/
theorem unescaped_eq (b : Byte) :
    unescaped b = if b = 0xD3 then some 0xC3 else if b = 0xDC then some 0xCC else none := rfl

end

/-- Settles O47, by decoding state. -/
theorem receiverActsOnEachByte : Obligations.ReceiverActsOnEachByte := by
  intro b s goes collected
  have hcollect (bytes : List Byte) (v : Byte) : s.setRx (collect bytes v) = collected bytes v := by
    rw [collect_eq]; rfl
  refine ⟨fun hrx => ?_, fun bytes hrx hb => ?_, fun bytes hrx => ?_, fun hrx => ?_, fun hrx => ?_⟩
  · rw [exec_downlinkByte_plain (by simp [LinkReceiver.endsBody, hrx]) (by simp [LinkReceiver.settles, hrx])]
    simp only [State.takeByte, hrx]
    rfl
  · rw [exec_downlinkByte_plain (LinkReceiver.endsBody_other _ hb) (LinkReceiver.settles_other _ hb)]
    simp only [State.takeByte, hrx, hcollect]
    rw [if_neg (show ¬ b = Config.delimiter from hb)]
    rfl
  · rw [exec_downlinkByte_plain (by simp [LinkReceiver.endsBody, hrx]) (by simp [LinkReceiver.settles, hrx])]
    simp only [State.takeByte, hrx, unescaped_eq]
    congr 1
    by_cases hC3 : b = 0xC3
    · subst hC3; rfl
    · rw [if_neg (show ¬ b = Config.delimiter from hC3), if_neg hC3]
      split_ifs
      · exact hcollect bytes _
      · exact hcollect bytes _
      · rfl
  · rw [exec_downlinkByte_plain (by simp [LinkReceiver.endsBody, hrx]) (by simp [LinkReceiver.settles, hrx])]
    simp only [State.takeByte, hrx]
    rfl
  · rw [exec_downlinkByte_plain (by simp [LinkReceiver.endsBody, hrx]) (by simp [LinkReceiver.settles, hrx])]
    simp only [State.takeByte, hrx]
    rfl

end Sys2Proof.Machine
end

section
/-! PROOFS. Frame delivery: ACK, NAK, the numbers of a HELLO and the acknowledgment timer (chapter 8). -/

namespace Sys2Proof.Machine

/-! ### What the delivery controller does not touch -/

section
variable (x : Beside) (s : State)

/-- A removal leaves alone what stands beside it. -/
theorem State.removeBefore_beside (n : Seq) : (s.beside x).removeBefore n = (s.removeBefore n).beside x := by
  have hjctl : (s.beside x).jctl = s.jctl := rfl
  unfold State.removeBefore
  rw [hjctl, State.sendSpaceFreed_eq, State.sendSpaceFreed_eq]
  split <;> rfl

/-- So does the taking back of the frames out. -/
theorem State.takeBack_beside : (s.beside x).takeBack = s.takeBack.beside x := by
  rw [State.takeBack_eq, State.takeBack_eq]
  rfl

/-- So does the number of a HELLO. -/
theorem State.takeHelloNumber_beside (e : Seq) : (s.beside x).takeHelloNumber e = (s.takeHelloNumber e).beside x := by
  have hjctl : (s.beside x).jctl = s.jctl := rfl
  unfold State.takeHelloNumber State.removeAndTakeBack
  rw [hjctl, State.removeBefore_beside, State.takeBack_beside, State.takeBack_beside]
  split <;> rfl

/-- So does the entry to UP. -/
theorem State.takeUp_beside : (s.beside x).takeUp = s.takeUp.beside x := by
  have hwires : (s.beside x).wires.upHello = s.wires.upHello := rfl
  unfold State.takeUp
  rw [hwires]
  cases s.wires.upHello with
  | none => rfl
  | some e =>
    have h : (s.beside x).withWires { (s.beside x).wires with upHello := none } =
        (s.withWires { s.wires with upHello := none }).beside x := rfl
    simp only [h, State.takeHelloNumber_beside]
    rfl

/-- So does the taking of a send end. -/
theorem State.finishSendEnd_beside : (s.beside x).finishSendEnd = s.finishSendEnd.beside x := by
  unfold State.finishSendEnd
  rw [State.takeSendReport_eq, State.takeSendReport_eq, State.takeSendEnd_eq, State.takeSendEnd_eq]
  rfl

/-- So does the entry to DOWN at the delivery controller. -/
theorem State.dlvTakesDown_beside : (s.beside x).dlvTakesDown = s.dlvTakesDown.beside x := by
  have hwires : (s.beside x).wires.falling.dlv = s.wires.falling.dlv := rfl
  have hltx : (s.beside x).ltxTakesDown = s.ltxTakesDown.beside x := by
    rw [State.ltxTakesDown_eq, State.ltxTakesDown_eq]
    rfl
  unfold State.dlvTakesDown
  rw [hwires, hltx, State.finishSendEnd_beside]
  split <;> rfl

/-- So does the taking of any change of the link state there. -/
theorem State.dlvTakesLink_beside : (s.beside x).dlvTakesLink = s.dlvTakesLink.beside x := by
  rw [State.dlvTakesLink, State.dlvTakesLink, State.takeUp_beside, State.dlvTakesDown_beside]

end

/-- A body that waits has nothing to do with an update that leaves alone what stands beside it. -/
theorem State.handedOff_comm {f : State → State} (hf : ∀ x s, f (State.beside x s) = (f s).beside x) (s : State) :
    f s.handedOff = (f s).handedOff :=
  calc f s.handedOff
    _ = ((f s).beside s.ownBeside).handedOff := hf { s.ownBeside with handedOn := none } s
    _ = (f s).handedOff := by rw [← hf]; rfl

/-- Nor does such an update change which body is next. -/
theorem State.isNext_comm {f : State → State} (hf : ∀ x s, f (State.beside x s) = (f s).beside x) (b : Body) (s : State) :
    (f s).isNext b ↔ s.isNext b := by
  have h : (f s).wires.handedOn = s.wires.handedOn := by
    rw [show f s = (f s).beside s.ownBeside from hf s.ownBeside s]
    rfl
  rw [State.isNext, h]

/-! ### The entry to UP -/

/-- What the removal of frames leaves of the messages that wait. -/
theorem State.removeBefore_fields (n : Seq) (s : State) :
    let t := s.removeBefore n
    t.wires = { s.wires with spaceFreed := t.wires.spaceFreed } ∧ t.lctl = s.lctl ∧ t.lrx = s.lrx ∧ t.cmd = s.cmd := by
  obtain ⟨-, h⟩ | ⟨-, h⟩ := s.removeBefore_cases n <;> rw [h]
  · exact ⟨rfl, rfl, rfl, rfl⟩
  · rw [State.sendSpaceFreed_eq]
    exact ⟨rfl, rfl, rfl, rfl⟩

/-- What the number of a HELLO leaves of them. -/
theorem State.takeHelloNumber_fields (e : Seq) (s : State) :
    let t := s.takeHelloNumber e
    t.wires = { s.wires with spaceFreed := t.wires.spaceFreed } ∧ t.lctl = s.lctl ∧ t.lrx = s.lrx ∧ t.cmd = s.cmd := by
  unfold State.takeHelloNumber State.removeAndTakeBack
  split
  · rw [State.takeBack_eq]
    exact s.removeBefore_fields e
  · rw [State.takeBack_eq]
    exact ⟨rfl, rfl, rfl, rfl⟩

/-- Once it is taken, no entry to UP waits; the link controller, the receiver and the command unit are left alone. -/
theorem State.takeUp_fields (s : State) :
    let t := s.takeUp
    t.wires = { s.wires with upHello := none, spaceFreed := t.wires.spaceFreed } ∧ t.lctl = s.lctl ∧ t.lrx = s.lrx ∧
    t.cmd = s.cmd := by
  unfold State.takeUp
  cases h : s.wires.upHello with
  | none => simp [← h]
  | some e =>
    obtain ⟨hw, hlctl, hlrx, hcmd⟩ := (s.withWires { s.wires with upHello := none }).takeHelloNumber_fields e
    exact ⟨hw, hlctl, hlrx, hcmd⟩

/-- Taken twice it is taken once. -/
@[simp] theorem State.takeUp_takeUp (s : State) : s.takeUp.takeUp = s.takeUp :=
  State.takeUp_none _ (by rw [s.takeUp_fields.1])

/-- A change of the link state taken by the delivery controller no longer waits there. -/
theorem State.dlvTakesLink_current (s : State) : s.dlvTakesLink.dlvCurrent := by
  unfold State.dlvTakesLink
  refine ⟨?_, s.takeUp.dlvTakesDown_fields.2.2.2.2.2.2.2.2.2.2.2.2.1⟩
  have hup : s.takeUp.wires.upHello = none := by rw [s.takeUp_fields.1]
  cases h : s.takeUp.wires.falling.dlv with
  | false => rw [State.dlvTakesDown_none _ h]; exact hup
  | true => rw [State.dlvTakesDown_eq _ h]; simp [State.ltxTakesDown_eq, hup]

/-! ### Numbers in range and out of range (R137) -/

section
variable {s : State} {n : Seq}

/-- In range: at most as many frames before the number as SENT frames. -/
theorem Journal.inRange_iff (j : Journal) : j.inRange n = true ↔ j.named n ≤ j.framesSent := by
  simp [Journal.inRange]

/-- A number out of range. -/
theorem Journal.inRange_eq_false {j : Journal} (h : j.framesSent < j.named n) : j.inRange n = false := by
  simp [Journal.inRange, h]

/-- The removal of some frames, with its space-freed report. -/
theorem State.removeBefore_eq (n : Seq) (s : State) :
    s.removeBefore n = { s with
      jctl := { s.jctl with frames := s.jctl.frames.drop (s.jctl.named n) }
      wires := { s.wires with
        spaceFreed := s.wires.spaceFreed + if s.jctl.named n ≠ 0 ∧ s.path.inHold = true then 1 else 0 } } := by
  obtain ⟨h, hr⟩ | ⟨h, hr⟩ := s.removeBefore_cases n <;> rw [hr]
  · simp [h]
  · rw [State.sendSpaceFreed_eq]
    cases hp : s.path.inHold <;> simp [h, hp, State.withWires, State.withJctl, Journal.remove]

/-- Some frame of a list is SENT exactly when their number is not 0. -/
theorem Journal.framesSent_eq_zero_iff (j : Journal) : j.framesSent = 0 ↔ ¬ ∃ f ∈ j.frames, f.state = .sent := by
  simp [Journal.framesSent]

/-- SENT frames stand before the SENDING one, so that a removal among them leaves it. -/
theorem find_sending_drop {l : List Frame} (h : statesInOrder l) {k : Nat}
    (hk : k ≤ l.countP (fun f => decide (f.state = .sent))) :
    (l.drop k).find? (fun f => decide (f.state = .sending)) = l.find? (fun f => decide (f.state = .sending)) := by
  induction l generalizing k with
  | nil => simp
  | cons f l ih =>
    cases k with
    | zero => rfl
    | succ k =>
      unfold statesInOrder at h
      cases hf : f.state <;> simp only [hf] at h
      case sent =>
        rw [List.countP_cons_of_pos (by simp [hf])] at hk
        rw [List.drop_succ_cons, ih h (by omega), List.find?_cons_of_neg (by simp [hf])]
      all_goals
        have hnone : l.countP (fun g => decide (g.state = .sent)) = 0 := by
          simp only [List.countP_eq_zero, decide_eq_true_eq]
          exact fun g hg => by simp [h g hg]
        rw [List.countP_cons_of_neg (by simp [hf]), hnone] at hk
        omega

/-- What a removal of SENT frames leaves is what the body in progress goes by. -/
theorem State.removeBefore_bodyMatchesFrame (h : s.bodyMatchesFrame) (horder : statesInOrder s.jctl.frames)
    (hn : s.jctl.named n ≤ s.jctl.framesSent) : (s.removeBefore n).bodyMatchesFrame := by
  have hseq : ({ s.jctl with frames := s.jctl.frames.drop (s.jctl.named n) } : Journal).sendingSeq = s.jctl.sendingSeq := by
    rw [Journal.sendingSeq, find_sending_drop horder hn]
    rfl
  rw [State.removeBefore_eq]
  simp only [State.bodyMatchesFrame, hseq]
  exact h

/-- Everything out taken back, with the abort of the JOURNAL body in progress. -/
theorem State.takeBack_abortedLine (h : s.bodyMatchesFrame) :
    s.takeBack = ((s.withLtx s.abortedLine).withJctl s.jctl.returnToClosed).withDlv { s.dlv with ackTimer := none } := by
  rw [State.takeBack, State.abortSending_abortedLine h]
  rfl

end

/-! ### ACK and NAK (R138, R139) -/

section
variable {n : Seq} {s : State}

/-- An ACK that is next is taken after a change of the link state that waits for the delivery controller. -/
theorem exec_ack_next (h : s.isNext (.ack n)) :
    exec (.ack n) s = nextOf (s.dlvTakesLink.handedOff.takeAckNumber n) := by
  simp only [exec, execAck]
  rw [State.takeHanded_next _ _ _ h, State.takeAck, State.handedOff_comm fun x s => s.dlvTakesLink_beside x]

/-- So is a NAK. -/
theorem exec_nak_next (h : s.isNext (.nak n)) :
    exec (.nak n) s = nextOf (s.dlvTakesLink.handedOff.takeNakNumber n) := by
  simp only [exec, execNak]
  rw [State.takeHanded_next _ _ _ h, State.takeNak, State.handedOff_comm fun x s => s.dlvTakesLink_beside x]

/-- An ACK in range that names another frame than the oldest removes those before it. -/
theorem State.takeAckNumber_removes (h0 : 0 < s.jctl.named n) (hn : s.jctl.named n ≤ s.jctl.framesSent) :
    s.takeAckNumber n = (s.removeBefore n).restartAckTimer := by
  rw [State.takeAckNumber, if_pos (s.jctl.inRange_iff.2 hn), if_neg (by omega)]

/-- An ACK that names the oldest held sequence changes nothing. -/
theorem State.takeAckNumber_oldest (h : s.jctl.named n = 0) : s.takeAckNumber n = s := by
  rw [State.takeAckNumber, if_pos (s.jctl.inRange_iff.2 (by omega)), if_pos h]

end

/-- Settles O42. -/
theorem ackAndNakAreTaken : Obligations.AckAndNakAreTaken := by
  intro n s u named freed current
  have hcurrent : current = s.dlvTakesLink := rfl
  have hcomm := fun x s => State.dlvTakesLink_beside x s
  have hself : s.dlvTakesLink.dlvTakesLink = s.dlvTakesLink :=
    State.dlvTakesLink_none _ s.dlvTakesLink_current.1 s.dlvTakesLink_current.2
  have hnone (h : s.dlvCurrent) : s.dlvTakesLink.handedOff = u := by rw [State.dlvTakesLink_none s h.1 h.2]; rfl
  refine ⟨fun hn => ?_, fun hn => ?_, fun hc hn h => ?_, fun hc hn h => ?_, fun hc hn h => ?_, fun hc hn h0 h => ?_,
    fun hc hn h hbody horder => ?_⟩
  · rw [exec_ack_next hn, hcurrent, exec_ack_next ((State.isNext_comm hcomm _ s).2 hn), hself]
  · rw [exec_nak_next hn, hcurrent, exec_nak_next ((State.isNext_comm hcomm _ s).2 hn), hself]
  · rw [exec_ack_next hn, hnone hc, State.takeAckNumber, if_neg (by rw [Journal.inRange_eq_false h]; simp)]
    rfl
  · rw [exec_nak_next hn, hnone hc, State.takeNakNumber, if_neg (by rw [Journal.inRange_eq_false h]; simp)]
    rfl
  · rw [exec_ack_next hn, hnone hc, State.takeAckNumber_oldest (s := u) h]
  · rw [exec_ack_next hn, hnone hc, State.takeAckNumber_removes (s := u) h0 h, State.removeBefore_eq, State.restartAckTimer]
    simp only [Journal.framesSent_eq_zero_iff, ite_not]
    rfl
  · rw [exec_nak_next hn, hnone hc, State.takeNakNumber, if_pos (u.jctl.inRange_iff.2 h), State.removeAndTakeBack,
      State.takeBack_abortedLine (State.removeBefore_bodyMatchesFrame (s := u) hbody horder h), State.removeBefore_eq]
    rfl

/-! ### The acknowledgment timer (R142, R143) -/

section
variable {j : Journal} {f : Frame} {rest : List Frame}

/-- The retry increment of a SENT head below 15. -/
theorem Journal.retryIncrement_raised (hf : j.frames = f :: rest) (hs : f.state = .sent) (hc : f.retryCount < 15) :
    j.retryIncrement = ({ j with frames := { f with retryCount := f.retryCount + 1 } :: rest }, f.retryCount + 1) := by
  simp [Journal.retryIncrement, hf, hs, hc]

/-- That of a SENT head at 15. -/
theorem Journal.retryIncrement_spent (hf : j.frames = f :: rest) (hs : f.state = .sent) (hc : ¬ f.retryCount < 15) :
    j.retryIncrement = (j, 16) := by
  simp [Journal.retryIncrement, hf, hs, hc]

/-- With no SENT head there is none. -/
theorem Journal.retryIncrement_none (h : ∀ f, j.frames.head? = some f → f.state ≠ .sent) : j.retryIncrement = (j, 0) := by
  cases hf : j.frames with
  | nil => simp only [Journal.retryIncrement, hf]
  | cons f rest => simp [Journal.retryIncrement, hf, h f (by rw [hf]; rfl)]

end

/-- The expiry that is due, by the value of the retry increment. -/
theorem exec_ackTimerExpiry_due {s : State} (ht : s.dlv.ackTimer = some 0) {j : Journal} {value : Nat}
    (hj : s.jctl.retryIncrement = (j, value)) :
    let s2 := (s.withDlv { s.dlv with ackTimer := none }).withJctl j
    exec .ackTimerExpiry s = nextOf
      (if value = 0 then s2 else if value ≤ s.dlv.retryLimit then s2.takeBack else s2.sendRetryReport) := by
  intro s2
  have hexec : exec .ackTimerExpiry s = nextOf s.ackExpired := by simp [exec, execAckTimerExpiry, ht]
  rw [hexec, State.ackExpired]
  simp only [State.withDlv_fields, hj]
  rfl

/-- Settles O43: 16, the value of a count already at 15, is past every RETRY-LIMIT. -/
theorem ackTimerExpires : Obligations.AckTimerExpires := by
  intro s
  refine ⟨fun ht hlimit => ⟨fun f rest hf hs hc => ⟨fun hle hbody => ?_, fun hlt => ?_⟩, fun h => ?_⟩, fun h => ?_⟩
  · rw [exec_ackTimerExpiry_due ht (Journal.retryIncrement_raised hf hs (by omega)), if_neg (by omega), if_pos hle,
      State.takeBack_abortedLine]
    · rfl
    · have hseq : ({ s.jctl with frames := { f with retryCount := f.retryCount + 1 } :: rest } : Journal).sendingSeq =
          s.jctl.sendingSeq := by
        simp [Journal.sendingSeq, hf, hs]
      simp only [State.bodyMatchesFrame, State.withJctl_fields, State.withDlv_fields, hseq]
      exact hbody
  · by_cases h15 : f.retryCount < 15
    · rw [exec_ackTimerExpiry_due ht (Journal.retryIncrement_raised hf hs h15), if_neg (by omega), if_neg (by omega),
        Nat.min_eq_left (by omega)]
      rfl
    · have hmin : min (f.retryCount + 1) 15 = f.retryCount := by omega
      rw [exec_ackTimerExpiry_due ht (Journal.retryIncrement_spent hf hs h15), if_neg (by omega), if_neg (by omega), hmin,
        ← hf]
      rfl
  · rw [exec_ackTimerExpiry_due ht (Journal.retryIncrement_none h), if_pos rfl]
    rfl
  · simp [exec, execAckTimerExpiry, h]

end Sys2Proof.Machine
end

section
/-! PROOFS. RECORDER_HELLO in each link state (sections 7.5, 8.5, 8.7). -/

namespace Sys2Proof.Machine

/-- The number of choices drawn has nothing to do with an update that leaves alone what stands beside it. -/
theorem State.withChoices_comm {f : State → State} (hf : ∀ x s, f (State.beside x s) = (f s).beside x) (n : Nat) (s : State) :
    f (s.withChoices n) = (f s).withChoices n :=
  calc f (s.withChoices n)
    _ = ((f s).beside s.ownBeside).withChoices n := hf { s.ownBeside with choices := n } s
    _ = (f s).withChoices n := by rw [← hf]; rfl

/-- What stands beside such an update is what stood there. -/
theorem State.ownBeside_comm {f : State → State} (hf : ∀ x s, f (State.beside x s) = (f s).beside x) (s : State) :
    (f s).ownBeside = s.ownBeside := by
  rw [show f s = (f s).beside s.ownBeside from hf s.ownBeside s]
  rfl

/-- What a HELLO taken in UP or TRAINING makes of it: it no longer waits, nor does an earlier report, and the silence timer is
started again. -/
def State.heard (s : State) : Beside :=
  { s.ownBeside with handedOn := none, frameReport := false, silenceTimer := some s.lctl.silenceLimit }

/-- No choice is drawn with it. -/
theorem State.heard_choices (s : State) : s.heard.choices = s.choices := rfl

section
variable {s : State} {e : Seq}

/-- A report that waits does not change the link state. -/
@[simp] theorem State.takeFrameReport_link (s : State) : s.takeFrameReport.lctl.link = s.lctl.link := by
  rw [State.takeFrameReport_eq]
  simp only
  split <;> rfl

/-- The report of an earlier body and that of the HELLO. -/
theorem State.handedOff_heard (s : State) : s.handedOff.takeFrameReport.restartSilence = s.beside s.heard := by
  rw [State.takeFrameReport_eq]
  simp only [State.restartSilence]
  split <;> rfl

/-- In UP its number is taken, after an entry to UP that waits. -/
theorem State.takeHello_up (h : s.lctl.link = .up) :
    s.handedOff.takeHello e = (s.takeUp.beside s.heard).takeHelloNumber e := by
  have hlink : s.handedOff.takeFrameReport.lctl.link = .up := (State.takeFrameReport_link _).trans h
  simp only [State.takeHello, hlink, State.handedOff_heard, State.takeUp_beside]

/-- In DOWN it is ignored. -/
theorem State.takeHello_down (h : s.lctl.link = .down) :
    s.handedOff.takeHello e = s.beside { s.ownBeside with handedOn := none, frameReport := false } := by
  have hlink : s.handedOff.takeFrameReport.lctl.link = .down := (State.takeFrameReport_link _).trans h
  simp only [State.takeHello, hlink]
  rw [State.takeFrameReport_eq, if_neg (by simp [h])]
  rfl

/-- The state with the link moved to UP by a HELLO that the delivery controller has not yet taken. -/
def State.movedUp (s : State) (e : Seq) : State :=
  let t := (s.beside s.heard).enterUp
  (t.withWires { t.wires with upHello := some e }).withChoices (s.choices + 1)

/-- In TRAINING a HELLO moves the link to UP, and the delivery controller takes it at once, or later. -/
theorem State.takeHello_training (h : s.lctl.link = .training) :
    s.handedOff.takeHello e =
      if Config.takesLate s.choices .dlv then s.movedUp e else (s.movedUp e).takeUp := by
  have hlink : s.handedOff.takeFrameReport.lctl.link = .training := (State.takeFrameReport_link _).trans h
  have hchoices : (s.beside s.heard).enterUp.choices = s.heard.choices := rfl
  simp only [State.takeHello, hlink, State.handedOff_heard, State.handUp, hchoices, State.heard_choices]
  cases Config.takesLate s.choices .dlv with
  | true => rfl
  | false =>
    rw [if_neg Bool.false_ne_true, if_neg Bool.false_ne_true]
    exact (State.withChoices_comm (fun x s => State.takeUp_beside x s) _ _).symm

/-- A HELLO that is next is taken. -/
theorem exec_recorderHello_next (h : s.isNext (.hello e)) :
    exec (.recorderHello e) s = nextOf (s.handedOff.takeHello e) := by
  simp only [exec, execRecorderHello]
  rw [State.takeHanded_next _ _ _ h]

/-! ### Nothing out -/

/-- With nothing out every frame is CLOSED. -/
theorem Journal.framesOut_eq_zero_iff (j : Journal) : j.framesOut = 0 ↔ ∀ f ∈ j.frames, f.state = .closed := by
  simp [Journal.framesOut]

/-- With every frame CLOSED the return to CLOSED changes nothing, none is SENDING and none SENT. -/
theorem Journal.closed_cases {j : Journal} (h : j.framesOut = 0) :
    j.returnToClosed = j ∧ j.sendingSeq = none ∧ j.framesSent = 0 := by
  rw [Journal.framesOut_eq_zero_iff] at h
  refine ⟨?_, ?_, ?_⟩
  · have hmap : j.frames.map returnedFrame = j.frames :=
      (List.map_congr_left fun f hf => by rw [returnedFrame, ← h f hf]; rfl).trans (List.map_id j.frames)
    rw [Journal.returnToClosed, hmap]
  · rw [Journal.sendingSeq, List.find?_eq_none.2 fun f hf => by simp [h f hf]]
    rfl
  · rw [Journal.framesSent_eq_zero_iff]
    rintro ⟨f, hf, hs⟩
    simp [h f hf] at hs

/-- With nothing out there is nothing to take back. -/
theorem State.takeBack_closed {s : State} (h : s.jctl.framesOut = 0) :
    s.takeBack = s.withDlv { s.dlv with ackTimer := none } := by
  obtain ⟨hclosed, hsending, -⟩ := Journal.closed_cases h
  rw [State.takeBack_eq, hclosed, hsending]
  rfl

/-- A number names the oldest held sequence exactly when it is it. -/
theorem Journal.named_eq_zero_iff (j : Journal) : j.named e = 0 ↔ e = j.oldestHeld := by
  rw [Journal.named]
  bv_omega

/-- With nothing out the number of a HELLO is counted unless it names the oldest held sequence. -/
theorem State.takeHelloNumber_closed {s : State} (h : s.jctl.framesOut = 0) :
    s.takeHelloNumber e = s.withDlv { s.dlv with
      ackTimer := none, range := if e = s.jctl.oldestHeld then s.dlv.range else satInc s.dlv.range } := by
  have hsent : s.jctl.framesSent = 0 := (Journal.closed_cases h).2.2
  by_cases he : e = s.jctl.oldestHeld
  · have h0 : s.jctl.named e = 0 := s.jctl.named_eq_zero_iff.2 he
    rw [State.takeHelloNumber, if_pos (s.jctl.inRange_iff.2 (by omega)), State.removeAndTakeBack, State.removeBefore,
      if_pos h0, State.takeBack_closed h, if_pos he]
  · have h0 : s.jctl.named e ≠ 0 := fun h => he (s.jctl.named_eq_zero_iff.1 h)
    rw [State.takeHelloNumber, if_neg (by rw [Journal.inRange_eq_false (by omega)]; simp), State.takeBack_closed h,
      if_neg he]
    rfl

end

/-- Settles O41. -/
theorem recorderHelloIsTaken : Obligations.RecorderHelloIsTaken := by
  intro e s hn u named
  have hbeside := fun x s => State.takeUp_beside x s
  refine ⟨?_, fun hup hout => ?_, fun hl => ?_, fun hl hup hbody horder => ?_, fun hl => ?_⟩
  · intro hl entered
    have hentered : s.movedUp e = entered := by
      simp only [State.movedUp, State.enterUp, State.beside, State.heard, State.ownBeside, State.withWires, State.withLctl,
        State.withLtx, State.withJctl, State.withLrx, State.withChoices]
      rfl
    rw [exec_recorderHello_next hn, State.takeHello_training hl, hentered]
  · simp only [State.takeUp, hup]
    rw [State.takeHelloNumber_closed]
    · rfl
    · exact hout
  · rw [exec_recorderHello_next hn, State.takeHello_up hl]
    rw [exec_recorderHello_next ((State.isNext_comm hbeside _ s).2 hn), State.takeHello_up (by rw [s.takeUp_fields.2.1, hl]),
      State.takeUp_takeUp]
    have hheard : s.takeUp.heard = s.heard := by
      rw [State.heard, State.heard, State.ownBeside_comm hbeside, s.takeUp_fields.2.1]
    rw [hheard]
  · rw [exec_recorderHello_next hn, State.takeHello_up hl, State.takeUp_none s hup]
    have hheard : s.beside s.heard = { u with lctl := { s.lctl with silenceTimer := some s.lctl.silenceLimit } } := by
      simp only [State.beside, State.heard, State.ownBeside, State.withWires, State.withLctl, State.withLrx,
        State.withChoices, u]
    rw [hheard]
    generalize hv : ({ u with lctl := { s.lctl with silenceTimer := some s.lctl.silenceLimit } } : State) = v
    have hjctl : v.jctl = s.jctl := by rw [← hv]
    have hbody' : v.bodyMatchesFrame := by rw [← hv]; exact hbody
    refine ⟨fun h => ?_, fun h => ?_⟩
    · have hrange : v.jctl.inRange e = true := (Journal.inRange_iff _).2 (by rw [hjctl]; exact h)
      rw [State.takeHelloNumber, if_pos hrange, State.removeAndTakeBack, State.takeBack_abortedLine
        (State.removeBefore_bodyMatchesFrame hbody' (hjctl ▸ horder) (by rw [hjctl]; exact h)), State.removeBefore_eq, ← hv]
      rfl
    · have hrange : v.jctl.inRange e = false := Journal.inRange_eq_false (by rw [hjctl]; exact h)
      rw [State.takeHelloNumber, if_neg (by rw [hrange]; simp), State.takeBack_abortedLine hbody', ← hv]
      rfl
  · rw [exec_recorderHello_next hn, State.takeHello_down hl]
    rfl

end Sys2Proof.Machine
end

section
/-! PROOFS. The uplink between bodies: the send end and the choice at a frame boundary (sections 6.5, 8.2, 8.3). -/

namespace Sys2Proof.Machine

/-! ### The SENDING frame -/

section
variable {j : Journal} {before after : List Frame} {f : Frame}

/-- A frame that is not SENDING is left alone by a send end. -/
theorem sentFrame_other {g : Frame} (h : g.state ≠ .sending) : sentFrame g = g := by
  unfold sentFrame
  split <;> simp_all

/-- Frames that are not SENDING are left alone. -/
theorem map_sentFrame_other {l : List Frame} (h : ∀ g ∈ l, g.state ≠ .sending) : l.map sentFrame = l :=
  (List.map_congr_left fun g hg => sentFrame_other (h g hg)).trans (List.map_id l)

/-- The SENDING frame becomes SENT, sent before, where it stands. -/
theorem map_sentFrame_sending (hs : f.state = .sending) (ho : ∀ g ∈ before ++ after, g.state ≠ .sending) :
    (before ++ f :: after).map sentFrame = before ++ { f with state := .sent, sentBefore := true } :: after := by
  rw [List.map_append, List.map_cons, map_sentFrame_other fun g hg => ho g (List.mem_append_left _ hg),
    map_sentFrame_other fun g hg => ho g (List.mem_append_right _ hg)]
  simp only [sentFrame, hs]

/-- A frame is SENDING exactly when the list holds one. -/
theorem Journal.sendingSeq_isSome_iff (j : Journal) : j.sendingSeq.isSome = true ↔ ∃ f ∈ j.frames, f.state = .sending := by
  simp [Journal.sendingSeq]

/-- No frame is SENDING. -/
theorem Journal.sendingSeq_isSome_eq_false (h : ∀ g ∈ j.frames, g.state ≠ .sending) : j.sendingSeq.isSome = false := by
  rw [Bool.eq_false_iff, ne_eq, Journal.sendingSeq_isSome_iff]
  rintro ⟨f, hf, hs⟩
  exact h f hf hs

end

/-! ### The send end (R76, R136, R144) -/

section
variable {s : State} {before after : List Frame} {f : Frame}

/-- The journal controller takes a send end of the SENDING frame. -/
theorem State.takeSendEnd_sending (hw : s.wires.sendEnd = true) (hf : s.jctl.frames = before ++ f :: after)
    (hs : f.state = .sending) (ho : ∀ g ∈ before ++ after, g.state ≠ .sending) :
    s.takeSendEnd = { s with
      jctl := { s.jctl with frames := before ++ { f with state := .sent, sentBefore := true } :: after }
      wires := { s.wires with sendEnd := false, sendReport := true } } := by
  have hsome : s.jctl.sendingSeq.isSome = true := s.jctl.sendingSeq_isSome_iff.2 ⟨f, by simp [hf], hs⟩
  rw [State.takeSendEnd_eq, hw, hsome, hf, map_sentFrame_sending hs ho]
  rfl

/-- With no frame SENDING it changes none. -/
theorem State.takeSendEnd_other (ho : ∀ g ∈ s.jctl.frames, g.state ≠ .sending) :
    s.takeSendEnd = s.withWires { s.wires with sendEnd := false } := by
  have hnone := Journal.sendingSeq_isSome_eq_false ho
  rw [State.takeSendEnd_eq, hnone, Bool.and_false, Bool.false_or, if_neg Bool.false_ne_true]
  rfl

/-- A report that waits starts the acknowledgment timer if it is stopped and a SENT frame is held. -/
theorem State.takeSendReport_timer (s : State) :
    s.takeSendReport = { s with
      dlv := { s.dlv with
        ackTimer := if s.wires.sendReport = true ∧ s.dlv.ackTimer = none ∧ (∃ f ∈ s.jctl.frames, f.state = .sent)
          then some s.dlv.ackTimeout else s.dlv.ackTimer }
      wires := { s.wires with sendReport := false } } := by
  have hiff : (s.wires.sendReport && s.dlv.ackTimer.isNone && decide (s.jctl.framesSent ≠ 0)) = true ↔
      s.wires.sendReport = true ∧ s.dlv.ackTimer = none ∧ (∃ f ∈ s.jctl.frames, f.state = .sent) := by
    simp [Journal.framesSent_eq_zero_iff, and_assoc]
  rw [State.takeSendReport_eq]
  simp only [hiff]
  split <;> rfl

/-- The send end of the SENDING frame with its report: the acknowledgment timer starts unless it runs. -/
theorem State.finishSendEnd_sending (hw : s.wires.sendEnd = true) (hf : s.jctl.frames = before ++ f :: after)
    (hs : f.state = .sending) (ho : ∀ g ∈ before ++ after, g.state ≠ .sending) :
    s.finishSendEnd = { s with
      jctl := { s.jctl with frames := before ++ { f with state := .sent, sentBefore := true } :: after }
      dlv := { s.dlv with ackTimer := if s.dlv.ackTimer = none then some s.dlv.ackTimeout else s.dlv.ackTimer }
      wires := { s.wires with sendEnd := false, sendReport := false } } := by
  rw [State.finishSendEnd, State.takeSendEnd_sending hw hf hs ho, State.takeSendReport_timer]
  have hsent : ∃ g ∈ before ++ { f with state := .sent, sentBefore := true } :: after, g.state = .sent :=
    ⟨_, List.mem_append_right _ List.mem_cons_self, rfl⟩
  simp only [hsent, and_true, true_and]

/-- With no frame SENDING, or no send end, a report that waits starts the timer only if a SENT frame is held. -/
theorem State.finishSendEnd_other (h : s.wires.sendEnd = false ∨ ∀ g ∈ s.jctl.frames, g.state ≠ .sending) :
    s.finishSendEnd = { s with
      dlv := { s.dlv with
        ackTimer := if s.wires.sendReport = true ∧ s.dlv.ackTimer = none ∧ (∃ f ∈ s.jctl.frames, f.state = .sent)
          then some s.dlv.ackTimeout else s.dlv.ackTimer }
      wires := { s.wires with sendEnd := false, sendReport := false } } := by
  have htake : s.takeSendEnd = s.withWires { s.wires with sendEnd := false } := by
    obtain hw | ho := h
    · rw [State.takeSendEnd_none s hw, ← hw]
      rfl
    · exact State.takeSendEnd_other ho
  rw [State.finishSendEnd, htake, State.takeSendReport_timer]
  rfl

end

/-! ### The end of a body -/

/-- All of a body has been sent once its bytes and the two of its check value have. -/
theorem LinkTransmitter.allSent_iff {x : LinkTransmitter} {b : TxBody} (hb : x.body = some b) :
    x.allSent = true ↔ b.bytes.length + 2 ≤ x.bytesSent := by
  simp only [LinkTransmitter.allSent, hb, LinkTransmitter.nextBodyByte]
  by_cases hlt : x.bytesSent < b.bytes.length
  · rw [List.getElem?_eq_getElem hlt]
    exact ⟨nofun, fun h => by omega⟩
  · rw [List.getElem?_eq_none (by omega)]
    by_cases h0 : x.bytesSent = b.bytes.length
    · simp only [if_pos h0]
      exact ⟨nofun, fun h => by omega⟩
    · by_cases h1 : x.bytesSent = b.bytes.length + 1
      · simp only [if_neg h0, if_pos h1]
        exact ⟨nofun, fun h => by omega⟩
      · simp only [if_neg h0, if_neg h1]
        exact ⟨fun _ => by omega, fun _ => rfl⟩

/-- Settles O45. -/
theorem sendEndMakesTheFrameSent : Obligations.SendEndMakesTheFrameSent := by
  intro s ended sent
  have hwaits (h : s.wires.sendEnd = true ∨ s.wires.sendReport = true) : exec .sendEnd s = nextOf s.finishSendEnd := by
    simp only [exec, execSendEnd, Bool.or_eq_true, if_pos h]
  refine ⟨fun hw before after f hf hs ho => ?_, fun hw ho => ?_, fun hw hr => ?_⟩
  · rw [hwaits (.inl hw), State.finishSendEnd_sending hw hf hs ho]
  · rw [hwaits hw, State.finishSendEnd_other ho]
  · have hend : s.ltx.inJournal = true → s.endBody = { s with ltx := ended, wires := { s.wires with sendEnd := true } } := by
      intro hj
      rw [State.endBody_eq, hj]
      rfl
    have hexec : exec .sendEnd s =
        if (s.ltx.byteDue && s.ltx.inJournal && s.ltx.allSent) = true then nextOf s.endBody.finishSendEnd else nextOf s := by
      simp only [exec, execSendEnd, hw, hr, Bool.or_self, Bool.false_eq_true, if_false]
    refine ⟨fun seq bytes hb => ?_, fun hj => ?_⟩
    · have hj : s.ltx.inJournal = true := by simp [LinkTransmitter.inJournal, hb]
      refine ⟨fun hdue hall => ?_, fun hnot => ?_⟩
      · have hdue : (s.ltx.byteDue && s.ltx.inJournal && s.ltx.allSent) = true := by
          rw [hdue, hj, (LinkTransmitter.allSent_iff hb).2 hall]
          rfl
        refine ⟨fun before after f hf hs ho => ?_, fun ho => ?_⟩
        · rw [hexec, if_pos hdue, hend hj, State.finishSendEnd_sending]
          · rfl
          · exact hf
          · exact hs
          · exact ho
        · have hwires : ({ s.wires with sendEnd := false, sendReport := false } : Wires) = s.wires :=
            calc ({ s.wires with sendEnd := false, sendReport := false } : Wires)
              _ = { s.wires with sendEnd := s.wires.sendEnd, sendReport := s.wires.sendReport } := by rw [hw, hr]
              _ = s.wires := rfl
          rw [hexec, if_pos hdue, hend hj, State.finishSendEnd_other]
          · simp only [hr, Bool.false_eq_true, false_and, if_false, hwires]
          · exact .inr ho
      · refine hexec.trans (if_neg ?_)
        rw [Bool.and_eq_true, Bool.and_eq_true, LinkTransmitter.allSent_iff hb]
        rintro ⟨⟨hdue, -⟩, hall⟩
        obtain h | h := hnot
        · simp [h] at hdue
        · exact absurd hall (Nat.not_le.2 h)
    · exact hexec.trans (if_neg (by simp [hj]))

/-! ### The choice at a frame boundary (R132) -/

/-- The oldest CLOSED frame is the first of the list that is CLOSED. -/
theorem takeOldestClosed_split {before after : List Frame} {f : Frame} (hb : ∀ g ∈ before, g.state ≠ .closed)
    (hf : f.state = .closed) :
    takeOldestClosed (before ++ f :: after) = some (f, before ++ { f with state := .sending } :: after) := by
  induction before with
  | nil => simp [takeOldestClosed, hf]
  | cons g before ih =>
    have hg : g.state ≠ .closed := hb g List.mem_cons_self
    simp [takeOldestClosed, hg, ih fun x hx => hb x (List.mem_cons_of_mem _ hx)]

/-- With none CLOSED there is none to take. -/
theorem takeOldestClosed_none {l : List Frame} (h : ∀ g ∈ l, g.state ≠ .closed) : takeOldestClosed l = none := by
  induction l with
  | nil => rfl
  | cons g l ih =>
    simp [takeOldestClosed, h g List.mem_cons_self, ih fun x hx => h x (List.mem_cons_of_mem _ hx)]

/-- At a boundary the choice is made. -/
theorem exec_frameBoundary {s : State} (hb : s.ltx.body = none) (ha : s.ltx.abortBytes = []) :
    exec .frameBoundary s = nextOf s.chooseBody := by
  simp [exec, execFrameBoundary, LinkTransmitter.atBoundary, hb, ha]

/-- The choice goes by the state in which no send end waits for the journal controller. -/
theorem State.chooseBody_takeSendEnd (s : State) : s.takeSendEnd.chooseBody = s.chooseBody := by
  have h : s.takeSendEnd.takeSendEnd = s.takeSendEnd := State.takeSendEnd_none _ (by rw [State.takeSendEnd_eq])
  simp only [State.chooseBody, h]

/-- The window is open for a journal frame exactly on the conditions of point 2. -/
theorem State.windowOpen_iff (s : State) : s.windowOpen = true ↔
    s.dlv.deliveryOpen = true ∧ (∀ g ∈ s.jctl.frames, g.state ≠ .sending) ∧ s.jctl.framesOut < s.dlv.sendWindow := by
  have hnone : s.jctl.sendingSeq.isNone = true ↔ ∀ g ∈ s.jctl.frames, g.state ≠ .sending := by
    simp [Journal.sendingSeq]
  simp [State.windowOpen, hnone, and_assoc]

/-- Settles O44. -/
theorem frameBoundaryChoosesTheBody : Obligations.FrameBoundaryChoosesTheBody := by
  intro s
  refine ⟨fun h => ?_, fun hb ha hw => ⟨fun before after f hf hs ho => ?_, fun ho => ?_⟩, ?_⟩
  · have hnot : ¬ s.ltx.atBoundary = true := by
      simp only [LinkTransmitter.atBoundary, Bool.and_eq_true, Option.isNone_iff_eq_none, List.isEmpty_iff]
      exact fun ⟨hb, ha⟩ => h.elim (fun h => h hb) (fun h => h ha)
    simp only [exec, execFrameBoundary, if_neg hnot]
  · rw [exec_frameBoundary hb ha, ← State.chooseBody_takeSendEnd, State.takeSendEnd_sending hw hf hs ho, exec_frameBoundary]
    · exact hb
    · exact ha
  · rw [exec_frameBoundary hb ha, ← State.chooseBody_takeSendEnd, State.takeSendEnd_other ho,
      show ({ s with wires := { s.wires with sendEnd := false } } : State) = s.withWires { s.wires with sendEnd := false }
        from rfl, exec_frameBoundary]
    · exact hb
    · exact ha
  · intro hb ha hw fill started
    have hexec := exec_frameBoundary hb ha
    rw [State.chooseBody, State.takeSendEnd_none s hw] at hexec
    have hfill : s.withLtx s.ltx.fill = fill := rfl
    refine ⟨fun hl => ?_, fun hl => ⟨fun hp => ?_, fun hp => ?_⟩, fun hl => ⟨fun r rest hr => ?_, fun hr => ⟨?_, ?_⟩⟩⟩
    · simp only [hexec, hl, hfill]
    · simp only [hexec, hl, hp, Bool.false_eq_true, if_false, hfill]
    · simp only [hexec, hl, hp, if_true]
      rfl
    · simp only [hexec, hl, State.arbitrate, hr]
      rfl
    · intro before after f hopen hroom ho hf hbefore hfs
      have hwindow : s.windowOpen = true := s.windowOpen_iff.2 ⟨hopen, ho, hroom⟩
      simp only [hexec, hl, State.arbitrate, hr, hwindow, hf, takeOldestClosed_split hbefore hfs]
      rfl
    · intro hnot
      have harb : s.arbitrate = s.withLtx s.ltx.fill := by
        simp only [State.arbitrate, hr]
        cases hwindow : s.windowOpen with
        | false => rfl
        | true =>
          obtain ⟨hopen, ho, hroom⟩ := s.windowOpen_iff.1 hwindow
          obtain h | h | ⟨g, hg, h⟩ | h := hnot
          · simp [h] at hopen
          · omega
          · exact absurd h (ho g hg)
          · rw [takeOldestClosed_none h]
      simp only [hexec, hl, harb, hfill]

end Sys2Proof.Machine
end

section
/-! PROOFS. The entry to DOWN, at the link controller and at each block (sections 7.4, 7.6, 8.7). -/

namespace Sys2Proof.Machine

/-! ### Each block's part -/

/-- The transmitter's part in words of its fields: a body in progress is aborted, and no HELLO is pending. -/
theorem State.ltxTakesDown_abort (s : State) :
    s.ltxTakesDown = if s.wires.falling.ltx then { s with
        ltx := if s.ltx.body = none then { s.ltx with helloPending := false }
          else { s.ltx with body := none, bytesSent := 0, escapeSent := false, check := 0xFFFF, helloPending := false
                            abortBytes := if s.ltx.escapeSent then [0xC3] else [0xCC, 0xC3] }
        wires := { s.wires with falling := { s.wires.falling with ltx := false } } }
      else s := by
  unfold State.ltxTakesDown
  split
  · cases hb : s.ltx.body <;> simp [LinkTransmitter.abortBody, hb, State.withLtx, State.withWires]; rfl
  · rfl

/-- What a send end and its report can touch. -/
theorem State.finishSendEnd_literal (s : State) : ∃ (j : Journal) (timer : Timer),
    s.finishSendEnd = { s with
      jctl := j, dlv := { s.dlv with ackTimer := timer }
      wires := { s.wires with sendEnd := false, sendReport := false } } := by
  rw [State.finishSendEnd, State.takeSendReport_timer, State.takeSendEnd_eq]
  exact ⟨_, _, rfl⟩

/-- The frames after a send end that waits and the return to CLOSED: all CLOSED, the SENDING one sent before. -/
theorem State.returned_finishSendEnd (s : State) :
    s.finishSendEnd.jctl.returnToClosed = { s.jctl with frames := s.jctl.frames.map (fun f => { f with
      state := .closed, sentBefore := f.sentBefore || (s.wires.sendEnd && decide (f.state = .sending)) }) } := by
  have hother (f : Frame) (h : (s.wires.sendEnd && decide (f.state = .sending)) = false) : returnedFrame f = { f with
      state := .closed, sentBefore := f.sentBefore || (s.wires.sendEnd && decide (f.state = .sending)) } := by
    rw [h, Bool.or_false]
    rfl
  rw [State.finishSendEnd, State.takeSendReport_timer, State.takeSendEnd_eq]
  simp only [Journal.returnToClosed]
  cases hw : s.wires.sendEnd && s.jctl.sendingSeq.isSome with
  | false =>
    simp only [Bool.false_eq_true, if_false]
    congr 1
    refine List.map_congr_left fun f hf => hother f ?_
    rw [Bool.and_eq_false_iff] at hw ⊢
    refine hw.imp id fun hnone => ?_
    rw [decide_eq_false_iff_not]
    intro hs
    rw [s.jctl.sendingSeq_isSome_iff.2 ⟨f, hf, hs⟩] at hnone
    exact absurd hnone nofun
  | true =>
    simp only [if_true, List.map_map]
    congr 1
    refine List.map_congr_left fun f hf => ?_
    have hend : s.wires.sendEnd = true := (Bool.and_eq_true _ _ ▸ hw).1
    cases hs : f.state <;> simp [sentFrame, returnedFrame, hs, hend]

/-- The delivery controller's part in words of the fields, behind the transmitter's. -/
theorem State.dlvTakesDown_return (s : State) :
    s.dlvTakesDown = if s.wires.falling.dlv then
      { s.ltxTakesDown with
        dlv := { s.ltxTakesDown.dlv with deliveryOpen := false, ackTimer := none }
        jctl := { s.ltxTakesDown.jctl with frames := s.ltxTakesDown.jctl.frames.map (fun f => { f with
          state := .closed
          sentBefore := f.sentBefore || (s.ltxTakesDown.wires.sendEnd && decide (f.state = .sending)) }) }
        wires := { s.ltxTakesDown.wires with
          sendEnd := false, sendReport := false, falling := { s.ltxTakesDown.wires.falling with dlv := false } } }
      else s := by
  cases h : s.wires.falling.dlv with
  | false => rw [State.dlvTakesDown_none s h]; rfl
  | true =>
    obtain ⟨j, timer, hu⟩ := s.ltxTakesDown.finishSendEnd_literal
    have hj := s.ltxTakesDown.returned_finishSendEnd
    rw [hu] at hj
    rw [State.dlvTakesDown_eq s h, if_pos rfl, hu]
    simp only at hj ⊢
    rw [hj]

/-! ### The fall -/

/-- What the blocks' parts leave alone stands beside them. -/
theorem State.takeDownBy_beside (x : Beside) (s : State) (of : Config.LinkBlock → Bool) (h : of .lrx = false) :
    (s.beside x).takeDownBy of = (s.takeDownBy of).beside x := by
  have hltx (u : State) : (u.beside x).ltxTakesDown = u.ltxTakesDown.beside x := by
    rw [State.ltxTakesDown_eq, State.ltxTakesDown_eq]
    rfl
  have hcmd (u : State) : (u.beside x).cmdTakesDown = u.cmdTakesDown.beside x := by
    rw [State.cmdTakesDown_eq, State.cmdTakesDown_eq]
    rfl
  have halr (u : State) : (u.beside x).alrTakesDown = u.alrTakesDown.beside x := by
    rw [State.alrTakesDown_eq, State.alrTakesDown_eq]
    rfl
  simp only [State.takeDownBy, h, Bool.false_eq_true, if_false]
  cases of .ltx <;> cases of .dlv <;> cases of .cmd <;> cases of .alr <;>
    simp only [hltx, hcmd, halr, State.dlvTakesDown_beside, Bool.false_eq_true, if_false, if_true]

/-- The state in which the link controller has entered DOWN and no block has taken its part. -/
def State.fallBegun (s : State) : State :=
  { s with
    lctl := { s.lctl with link := .down, silenceTimer := none, helloTimer := none }
    cmd := { s.cmd with replies := if s.lctl.link = .up then s.cmd.replies else [] }
    wires := { s.wires with
      falling := { lrx := true, ltx := true, dlv := true
                   cmd := decide (s.lctl.link = .up), alr := decide (s.lctl.link = .up) } } }

/-- The fall that a retry-limit report brings, with so many reports left. -/
theorem State.fallBegun_withReports (s : State) (n : Nat) :
    (s.withWires { s.wires with retryReports := n }).fallBegun = { s with
      lctl := { s.lctl with link := .down, silenceTimer := none, helloTimer := none }
      cmd := { s.cmd with replies := if s.lctl.link = .up then s.cmd.replies else [] }
      wires := { s.wires with
        retryReports := n
        falling := { lrx := true, ltx := true, dlv := true
                     cmd := decide (s.lctl.link = .up), alr := decide (s.lctl.link = .up) } } } := rfl

section
variable {s : State}

/-- The link controller hands the change to the blocks. -/
theorem State.handDown_eq (hup : s.wires.upHello = none) : s.handDown = s.fallBegun := by
  simp only [State.handDown, State.takeUp_none s hup]
  cases hl : s.lctl.link <;> simp [State.fallBegun, hl, State.withLctl, State.withWires, State.withCmd]

/-- Each block takes its part at once, or later. -/
theorem State.enterDown_eq (hup : s.wires.upHello = none) :
    s.enterDown = (s.fallBegun.takeDownBy fun b => !Config.takesLate s.choices b).withChoices (s.choices + 1) := by
  rw [State.enterDown, State.handDown_eq hup]

/-- The fall with so many retry-limit reports left, through any function that says what the blocks' parts do. -/
theorem State.enterDown_withReports (n : Nat) (taken : (Config.LinkBlock → Bool) → State → State)
    (hby : ∀ (of : Config.LinkBlock → Bool) (v : State), v.takeDownBy of = taken of v) (hup : s.wires.upHello = none) :
    (s.withWires { s.wires with retryReports := n }).enterDown =
      { taken (fun b => !Config.takesLate s.choices b) { s with
          lctl := { s.lctl with link := .down, silenceTimer := none, helloTimer := none }
          cmd := { s.cmd with replies := if s.lctl.link = .up then s.cmd.replies else [] }
          wires := { s.wires with
            retryReports := n
            falling := { lrx := true, ltx := true, dlv := true
                         cmd := decide (s.lctl.link = .up), alr := decide (s.lctl.link = .up) } } } with
        choices := s.choices + 1 } := by
  rw [State.enterDown_eq (s := s.withWires { s.wires with retryReports := n }) hup, hby, State.fallBegun_withReports]
  rfl

/-- An entry to UP that waits is taken before the fall. -/
theorem State.enterDown_takeUp (s : State) : s.takeUp.enterDown = s.enterDown := by
  have hchoices : s.takeUp.choices = s.choices :=
    congrArg Beside.choices (State.ownBeside_comm (fun x s => State.takeUp_beside x s) s)
  simp only [State.enterDown, State.handDown, State.takeUp_takeUp, hchoices, s.takeUp_fields.2.1]

/-- The link stands in DOWN after the fall, and a frame-received report still waits. -/
theorem State.enterDown_link (s : State) :
    s.enterDown.lctl.link = .down ∧ s.enterDown.wires.frameReport = s.wires.frameReport := by
  have hup : s.takeUp.wires.frameReport = s.wires.frameReport := by rw [s.takeUp_fields.1]
  rw [← State.enterDown_takeUp, State.enterDown_eq (by rw [s.takeUp_fields.1]), ← hup]
  refine State.takeDownBy_keeps (fun u => u.lctl.link = .down ∧ u.wires.frameReport = s.takeUp.wires.frameReport) _
    (fun u h => ?_) (fun u h => ?_) (fun u h => ?_) (fun u h => ?_) (fun u h => ?_) _ ⟨rfl, rfl⟩
  · rw [State.ltxTakesDown_eq]; exact h
  · cases hd : u.wires.falling.dlv with
    | false => rw [State.dlvTakesDown_none u hd]; exact h
    | true => rw [State.dlvTakesDown_eq u hd]; simpa [State.ltxTakesDown_eq] using h
  · rw [State.lrxTakesDown_eq]; exact h
  · rw [State.cmdTakesDown_eq]; exact h
  · rw [State.alrTakesDown_eq]; exact h

/-- The silence timer's expiry that is due in TRAINING or UP. -/
theorem exec_silenceTimerExpiry_due (ht : s.lctl.silenceTimer = some 0) (hl : s.lctl.link ≠ .down) :
    exec .silenceTimerExpiry s = nextOf s.enterDown := by
  simp only [exec, execSilenceTimerExpiry, ht, expiryDue_iff, if_true, State.silenceExpired]
  cases h : s.lctl.link with
  | down => exact absurd h hl
  | training => rfl
  | up => rfl

/-- Before it is due the row has no effect. -/
theorem exec_silenceTimerExpiry_none (ht : s.lctl.silenceTimer ≠ some 0) : exec .silenceTimerExpiry s = nextOf s := by
  simp [exec, execSilenceTimerExpiry, ht]

/-- A retry-limit report that waits is taken. -/
theorem exec_retryLimitReport_waits {n : Nat} (h : s.wires.retryReports = n + 1) :
    exec .retryLimitReport s = nextOf (if s.lctl.link = .up then (s.withWires { s.wires with retryReports := n }).enterDown
      else s.withWires { s.wires with retryReports := n }) := by
  simp only [exec, execRetryLimitReport, h, Nat.add_one_ne_zero, if_false, Nat.add_sub_cancel, State.retryLimitReached,
    State.withWires_fields]
  cases s.lctl.link <;> rfl

end

/-- Settles O39: each block's part is its clause, and the fall hands the change to them. -/
theorem linkFallsToDown : Obligations.LinkFallsToDown := by
  unfold Obligations.LinkFallsToDown
  intro ltxTakes dlvTakes lrxTakes cmdTakes alrTakes taken
  have hltx (v : State) : v.ltxTakesDown = ltxTakes v := v.ltxTakesDown_abort
  have hdlv (v : State) : v.dlvTakesDown = dlvTakes v := by
    rw [State.dlvTakesDown_return, hltx]
  have hlrx (v : State) : v.lrxTakesDown = lrxTakes v := rfl
  have hcmd (v : State) : v.cmdTakesDown = cmdTakes v := rfl
  have halr (v : State) : v.alrTakesDown = alrTakes v := rfl
  clear_value ltxTakes dlvTakes lrxTakes cmdTakes alrTakes
  have hby (of : Config.LinkBlock → Bool) (v : State) : v.takeDownBy of = taken of v := by
    rw [State.takeDownBy]
    simp only [hltx, hdlv, hlrx, hcmd, halr]
    rfl
  clear_value taken
  refine ⟨hby, fun v => hby _ v, fun s => ?_⟩
  intro fallen
  have hfallen (n : Nat) (hup : s.wires.upHello = none) :
      (s.withWires { s.wires with retryReports := n }).enterDown = fallen n :=
    State.enterDown_withReports n taken hby hup
  have htakeUp (n : Nat) (hn : s.wires.retryReports = n) : s.takeUp.wires.retryReports = n := by
    rw [s.takeUp_fields.1]; exact hn
  refine ⟨fun hup => ⟨fun ht hl => ?_, fun n hn hl => ?_⟩, fun hl => ⟨fun ht => ?_, fun hn => ?_⟩,
    exec_silenceTimerExpiry_none, fun hr ht hl hlimit => ⟨?_, ?_⟩, fun n hn hl => ?_, fun hn => ?_⟩
  · rw [exec_silenceTimerExpiry_due ht hl, ← hfallen s.wires.retryReports hup]
    rfl
  · rw [exec_retryLimitReport_waits hn, if_pos hl, hfallen n hup]
  · rw [exec_silenceTimerExpiry_due ht (by simp [hl]), exec_silenceTimerExpiry_due, State.enterDown_takeUp]
    · rw [s.takeUp_fields.2.1, ht]
    · rw [s.takeUp_fields.2.1, hl]; exact nofun
  · obtain ⟨n, hn⟩ := Nat.exists_eq_succ_of_ne_zero hn
    have hcomm : (s.withWires { s.wires with retryReports := n }).takeUp =
        s.takeUp.withWires { s.takeUp.wires with retryReports := n } :=
      calc (s.withWires { s.wires with retryReports := n }).takeUp
        _ = s.takeUp.beside { s.ownBeside with retryReports := n } :=
          State.takeUp_beside { s.ownBeside with retryReports := n } s
        _ = (s.takeUp.beside s.ownBeside).withWires { (s.takeUp.beside s.ownBeside).wires with retryReports := n } := rfl
        _ = s.takeUp.withWires { s.takeUp.wires with retryReports := n } := by rw [← State.takeUp_beside]; rfl
    rw [exec_retryLimitReport_waits hn, if_pos hl, exec_retryLimitReport_waits (htakeUp _ hn),
      if_pos (by rw [s.takeUp_fields.2.1, hl]), ← hcomm, State.enterDown_takeUp]
  · refine ⟨s.enterDown, exec_silenceTimerExpiry_due ht hl, s.enterDown_link.1, s.enterDown_link.2.trans hr, ?_⟩
    rw [State.takeFrameReport_eq, if_neg (by simp [s.enterDown_link.1])]
  · refine exec_silenceTimerExpiry_none ?_
    rw [State.takeFrameReport_eq, if_pos ⟨hr, hl⟩]
    simp only [ne_eq, Option.some.injEq]
    omega
  · rw [exec_retryLimitReport_waits hn, if_neg hl]
    rfl
  · simp [exec, execRetryLimitReport, hn]

end Sys2Proof.Machine
end

section
/-! PROOFS. The events of the part: the small changes of the state of which every command and every CLK period is made. A change
of one block is described by what the invariants need to know of it, the others are written out. `Reach` runs events of the kinds
that are allowed; what a command may do is read off the kinds of its events. -/

namespace Sys2Proof.Machine

/-! ### What a change of one block keeps -/

/-- What holds of the path controller at all times (R22 to R26, R30, Table 2-3). -/
def Path.Sound (p : Path) : Prop :=
  (State.reset.withPath p).trackingSound ∧ (State.reset.withPath p).portsSound ∧ (State.reset.withPath p).stallSound

/-- The path controller's parameter stays and its counters do not fall. -/
structure Path.Grows (p q : Path) : Prop where
  limit     : q.stallLimit = p.stallLimit
  refused   : p.writesRefused ≤ q.writesRefused
  expiries  : p.stallExpiries ≤ q.stallExpiries
  failures  : p.writeFailures ≤ q.writeFailures
  unmatched : p.unmatchedResponses ≤ q.unmatchedResponses

/-- A step of the path controller. -/
structure PathStep (p q : Path) : Prop where
  grows : p.Grows q
  sound : p.Sound → q.Sound

/-- A step of the store side of the journal controller: claims, losses and closing. -/
structure StoreStep (j k : Journal) : Prop where
  limit    : k.frameLimit = j.frameLimit
  idle     : k.idleClose = j.idleClose
  epoch    : k.epoch = j.epoch
  appended : j.recordsAppended ≤ k.recordsAppended
  lost     : j.recordsLost ≤ k.recordsLost
  closed   : j.framesClosed ≤ k.framesClosed
  added    : ∃ new, k.frames = j.frames ++ new ∧ ∀ f ∈ new, f.state = .closed ∧ f.retryCount = 0
  sound    : 256 ≤ j.frameLimit → j.frameLimit ≤ 4096 → j.sound → k.sound

/-- What of a frame its delivery does not touch. -/
def Frame.contents (f : Frame) : Seq × BitVec 32 × List Record × CloseCause := (f.seq, f.baseTime, f.records, f.closeCause)

/-- A step of the journal controller's frames in delivery, with the delivery controller's own part in it. -/
structure DeliveryStep (j : Journal) (d : Delivery) (k : Journal) (e : Delivery) : Prop where
  rest     : { k with frames := j.frames } = j
  contents : k.frames.map Frame.contents <:+ j.frames.map Frame.contents
  sound    : j.sound → j.onlyOldestRetried → k.sound ∧ k.onlyOldestRetried
  params   : e.sendWindow = d.sendWindow ∧ e.ackTimeout = d.ackTimeout ∧ e.retryLimit = d.retryLimit
  range    : d.range ≤ e.range
  out      : k.framesOut ≤ j.framesOut
  timer    : (d.ackTimer ≠ none → j.framesSent ≠ 0) → e.ackTimer ≠ none → k.framesSent ≠ 0
  quiet    : j.framesOut = 0 → d.deliveryOpen = false → d.ackTimer = none → e.deliveryOpen = false ∧ e.ackTimer = none

/-- A step of the transmitter on the line. -/
structure LineStep (x y : LinkTransmitter) : Prop where
  line  : (State.reset.withLtx x).lineSound → (State.reset.withLtx y).lineSound
  clock : y.byteClk = x.byteClk
  due   : y.byteDue = true → x.byteDue = true
  hello : y.helloPending = true → x.helloPending = true
  count : x.retransmitted ≤ y.retransmitted

/-- At most 64 bytes are collected, and at least one in COLLECTING (Table 6-5). -/
def RxState.bounded : RxState → Prop
  | .collecting bytes => 1 ≤ bytes.length ∧ bytes.length ≤ 64
  | .escaped bytes    => bytes.length ≤ 64
  | .notDecoding | .between | .discarding _ => True

/-- No counter of discarded bodies falls. -/
structure DiscardCounters.Grows (c d : DiscardCounters) : Prop where
  crc    : c.crc ≤ d.crc
  length : c.length ≤ d.length
  abort  : c.abort ≤ d.abort
  escape : c.escape ≤ d.escape
  kind   : c.kind ≤ d.kind
  state  : c.state ≤ d.state

/-- A step of the receiver's decoding. -/
structure ReceiverStep (x y : LinkReceiver) : Prop where
  code     : y.settleCode = x.settleCode
  discards : x.discards.Grows y.discards
  decoding : y.rx = .notDecoding ↔ x.rx = .notDecoding
  bounded  : x.rx.bounded → y.rx.bounded
  settle   : x.settleCode ≤ 3 → (State.reset.withLrx x).settleSound → (State.reset.withLrx y).settleSound

/-! ### Events -/

/-- The kinds of events, by what brings them about. -/
inductive EventKind where
  | path
  | hit
  | link
  | receive
  | rise
  | status
  | clock
  | period
  | setEntry
  | clearTable
  | setParam
  | getStatus
  | clearAlerts
  | command

/-- One event. -/
inductive Event : EventKind → State → State → Prop
  /-- The path controller, what it hands to the others, and the alerts that come with it. -/
  | path (s : State) (p : Path) (claims : List WaitingClaim) (freed : Nat) (m : BitVec 6) : PathStep s.path p →
      Event .path s { s with
        path := p, wires := { s.wires with claims := claims, spaceFreed := freed }
        alr := { s.alr with flags := s.alr.flags ||| m } }
  /-- The store side of the journal controller. -/
  | store (s : State) (j : Journal) : StoreStep s.jctl j → Event .path s { s with jctl := j }
  /-- A request is classified to an entry (R14). -/
  | hit (s : State) (e : WatchEntry) (index : Nat) : s.wtab.entries[index]? = some e →
      Event .hit s { s with wtab := s.wtab.put index { e with hitCount := satInc e.hitCount } }
  /-- Frames in delivery. -/
  | delivery (s : State) (j : Journal) (d : Delivery) : DeliveryStep s.jctl s.dlv j d →
      Event .link s { s with jctl := j, dlv := d }
  /-- The oldest CLOSED frame is SENDING (R135). -/
  | sending (s : State) (f : Frame) (frames : List Frame) : s.lctl.link = .up → s.windowOpen = true →
      takeOldestClosed s.jctl.frames = some (f, frames) → Event .link s { s with jctl := { s.jctl with frames := frames } }
  /-- The transmitter on the line. -/
  | line (s : State) (x : LinkTransmitter) : LineStep s.ltx x → Event .link s { s with ltx := x }
  /-- A reply leaves the head of the queue (R133). -/
  | replyStarted (s : State) (r : Reply) (rest : List Reply) : s.cmd.replies = r :: rest →
      Event .link s { s with cmd := { s.cmd with replies := rest } }
  /-- Reports between blocks. -/
  | reports (s : State) (sendEnd sendReport : Bool) (freed retries : Nat) :
      Event .link s { s with wires := { s.wires with
        sendEnd := sendEnd, sendReport := sendReport, spaceFreed := freed, retryReports := retries } }
  /-- A frame-received report no longer waits. -/
  | reportTaken (s : State) : Event .link s { s with wires := { s.wires with frameReport := false } }
  /-- A frame-received report is made (R110). -/
  | reportMade (s : State) : Event .receive s { s with wires := { s.wires with frameReport := true } }
  /-- No body waits any longer. -/
  | handedOff (s : State) : Event .link s { s with wires := { s.wires with handedOn := none } }
  /-- An accepted body is handed on (R110). -/
  | handedOn (s : State) (b : Body) : (s.lctl.link = .training → b.isHello = true) →
      Event .receive s { s with wires := { s.wires with handedOn := some b } }
  /-- The receiver's decoding. -/
  | receiver (s : State) (x : LinkReceiver) : ReceiverStep s.lrx x → Event .link s { s with lrx := x }
  /-- A receiver that counts out of DOWN, which it never does, counts on. -/
  | countedOn (s : State) (n : Nat) : s.lrx.rx = .notDecoding → s.lctl.link ≠ .down →
      Event .link s { s with lrx := { s.lrx with settleCount := n } }
  /-- LINE or LINK is set. -/
  | linkAlert (s : State) (m : BitVec 6) :
      Event .link s { s with alr := { s.alr with flags := s.alr.flags ||| (m &&& 0b001100) } }
  /-- The silence timer is started again (R123). -/
  | silenceStarted (s : State) : s.lctl.link ≠ .down →
      Event .link s { s with lctl := { s.lctl with silenceTimer := some s.lctl.silenceLimit } }
  /-- The silence timer is stopped in DOWN. -/
  | silenceStopped (s : State) : s.lctl.link = .down → Event .link s { s with lctl := { s.lctl with silenceTimer := none } }
  /-- The hello timer is started again, with a HELLO request (R122). -/
  | helloStarted (s : State) : s.lctl.link = .training →
      Event .link s { s with
        lctl := { s.lctl with helloTimer := some s.lctl.helloInterval }, ltx := { s.ltx with helloPending := true } }
  /-- The hello timer is stopped out of TRAINING. -/
  | helloStopped (s : State) : s.lctl.link ≠ .training →
      Event .link s { s with lctl := { s.lctl with helloTimer := none } }
  /-- The move from TRAINING to UP (R125). -/
  | risen (s : State) : s.lctl.link = .training →
      Event .rise s { s with
        lctl := { s.lctl with link := .up, helloTimer := none }, ltx := { s.ltx with helloPending := false }
        jctl := { s.jctl with frames := s.jctl.frames.map freshFrame } }
  /-- The entry to UP is handed to the delivery controller (R125). -/
  | upGiven (s : State) (e : Seq) : s.lctl.link = .up →
      Event .rise s { s with wires := { s.wires with upHello := some e } }
  /-- The delivery controller takes the entry to UP (R145). -/
  | upTaken (s : State) (j : Journal) (d : Delivery) (x : LinkTransmitter) (freed : Nat) : s.wires.upHello ≠ none →
      DeliveryStep s.jctl s.dlv j d → LineStep s.ltx x →
      Event .link s { s with
        jctl := j, dlv := { d with deliveryOpen := true }, ltx := x
        wires := { s.wires with upHello := none, spaceFreed := freed } }
  /-- The link controller enters DOWN (R127). -/
  | fallen (s : State) : s.lctl.link ≠ .down → s.wires.upHello = none → Event .link s s.fallBegun
  /-- The link receiver takes the entry to DOWN. -/
  | lrxDown (s : State) : s.wires.falling.lrx = true →
      Event .link s { s with
        lrx := { s.lrx with rx := .notDecoding, settleCount := 0 }
        wires := { s.wires with falling := { s.wires.falling with lrx := false } } }
  /-- The link transmitter takes the entry to DOWN. -/
  | ltxDown (s : State) (x : LinkTransmitter) : s.wires.falling.ltx = true → LineStep s.ltx x → x.helloPending = false →
      Event .link s { s with ltx := x, wires := { s.wires with falling := { s.wires.falling with ltx := false } } }
  /-- The delivery controller takes the entry to DOWN. -/
  | dlvDown (s : State) : s.wires.falling.dlv = true → s.wires.falling.ltx = false →
      Event .link s { s with
        dlv := { s.dlv with deliveryOpen := false, ackTimer := none }, jctl := s.jctl.returnToClosed
        wires := { s.wires with falling := { s.wires.falling with dlv := false } } }
  /-- The command unit takes the entry to DOWN. -/
  | cmdDown (s : State) : s.wires.falling.cmd = true →
      Event .link s { s with
        cmd := { s.cmd with replies := [] }, wires := { s.wires with falling := { s.wires.falling with cmd := false } } }
  /-- The alert unit takes the entry to DOWN. -/
  | alrDown (s : State) : s.wires.falling.alr = true →
      Event .link s { s with wires := { s.wires with falling := { s.wires.falling with alr := false } } }
  /-- The entry to TRAINING (R121). -/
  | trained (s : State) (n : Nat) : s.lctl.link = .down → s.wires.falling = FallMarks.none → s.cmd.reading = none →
      s.wires.handedOn = none → s.lrx.rx = .notDecoding → n ≤ s.lrx.settleCount + 1 →
      Event .link s { s with
        lctl := { s.lctl with
          link := .training, silenceTimer := some s.lctl.silenceLimit, helloTimer := some s.lctl.helloInterval }
        ltx := { s.ltx with helloPending := true }
        lrx := { s.lrx with rx := .between, settleCount := n } }
  /-- Choices are drawn. -/
  | drawn (s : State) (n : Nat) : s.choices ≤ n → Event .link s { s with choices := n }
  /-- Owners that answer a GET-STATUS clear their counters (R175). -/
  | cleared (s : State) (r : StatusReading) (of : Config.StatusOwner → Bool) : s.cmd.reading = some r → r.clear = true →
      Event .status s (s.clearCounters of)
  /-- A GET-STATUS is still being executed after a moment of it or a CLK period. -/
  | readOn (s : State) (r q : StatusReading) (n : Nat) : s.cmd.reading = some r → q.clear = r.clear →
      (r.complete = false → q.complete = false) → q.periods = r.periods ∨ q.periods < 16 → s.choices ≤ n →
      Event .status s { s with cmd := { s.cmd with reading := some q }, choices := n }
  /-- The reply of a GET-STATUS is formed (R154). -/
  | statusReplied (s : State) (r : StatusReading) (reply : Reply) (n : Nat) : s.cmd.reading = some r → s.choices ≤ n →
      Event .status s { s with
        cmd := { s.cmd with
          lastTag := some reply, execState := .ready, reading := none
          replies := if s.offLine then s.cmd.replies else s.cmd.replies ++ [reply] }
        choices := n }
  /-- One tick at the counters and the timers (R86, R87). -/
  | tick (s : State) : Event .clock s s.tickCounters
  /-- The inputs and freeze. -/
  | inputs (s : State) (m : MarkerUnit) (f : FreezeUnit) : m.filterCode = s.mrk.filterCode → m.markers = s.mrk.markers →
      (m.codeInUse = s.mrk.codeInUse ∨ m.codeInUse = s.mrk.filterCode) → f.filterCode = s.frzu.filterCode →
      (f.codeInUse = s.frzu.codeInUse ∨ f.codeInUse = s.frzu.filterCode) →
      Event .clock s { s with mrk := m, frzu := f }
  /-- The levels of the pins. -/
  | levels (s : State) (p : Pins) : Event .clock s { s with pins := p }
  /-- A CLK period at the timebase and at the transmitter (R84, R103). -/
  | period (s : State) : s.tbs.tickDue = false → s.ltx.byteDue = false →
      Event .period s { s with tbs := s.tbs.clkPeriod, ltx := s.ltx.clkPeriod }
  /-- SET-ENTRY at the table. -/
  | entrySet (s : State) (args : List Byte) : Event .setEntry s { s with wtab := (s.wtab.setEntry args).1 }
  /-- CLEAR-TABLE at the table. -/
  | tableCleared (s : State) : Event .clearTable s { s with wtab := s.wtab.clear }
  /-- A parameter is set, but SETTLE-CODE. -/
  | paramSet (s : State) (p : Param) (v : Nat) : paramInRange p v = true → p ≠ .settleCode →
      Event .setParam s (s.setParamValue p v)
  /-- SETTLE-CODE is set, and the count is below the new figure while the receiver counts. -/
  | settleCodeSet (s : State) (v : Nat) : v ≤ 3 →
      (s.lrx.rx = .notDecoding → s.lrx.settleCount < settleFigure v ∨ s.lctl.link ≠ .down) →
      Event .setParam s { s with lrx := { s.lrx with settleCode := v } }
  /-- Alerts are cleared by a mask (R172). -/
  | alertsCleared (s : State) (m : BitVec 6) :
      Event .clearAlerts s { s with alr := { s.alr with flags := s.alr.flags &&& ~~~m } }
  /-- A GET-STATUS begins (R155, R161). -/
  | begun (s : State) (r : StatusReading) : s.cmd.reading = none → s.cmd.replies.length < 4 → r.complete = false →
      r.periods = 0 → s.lctl.link = .up ∨ s.wires.falling.cmd = true →
      Event .getStatus s { s with cmd := { s.cmd with execState := .executing, reading := some r } }
  /-- The reply of a command is formed (R154). -/
  | replied (s : State) (r : Reply) : s.cmd.reading = none → s.cmd.replies.length < 4 →
      Event .command s { s with cmd := { s.cmd with
        lastTag := some r, execState := .ready, reading := none
        replies := if s.offLine then s.cmd.replies else s.cmd.replies ++ [r] } }
  /-- A stored reply joins the queue (R152). -/
  | requeued (s : State) (r : Reply) : s.cmd.reading = none → s.cmd.replies.length < 4 →
      Event .command s { s with cmd := { s.cmd with
        replies := if s.offLine then s.cmd.replies else s.cmd.replies ++ [r] } }
  /-- A command is discarded, the queue being full (R151). -/
  | discardedFull (s : State) : Event .command s { s with cmd := { s.cmd with commandsDiscarded := satInc s.cmd.commandsDiscarded } }
  /-- The journal is restarted (R81). -/
  | restarted (s : State) :
      Event .command s { s with jctl := s.jctl.restart, dlv := { s.dlv with ackTimer := none } }

/-- Events of allowed kinds, one after another. -/
def Reach (allow : EventKind → Prop) : State → State → Prop := Relation.ReflTransGen fun s t => ∃ k, allow k ∧ Event k s t

section
variable {allow : EventKind → Prop} {s t u : State}

/-- No event has to happen. -/
theorem Reach.refl (s : State) : Reach allow s s := Relation.ReflTransGen.refl

/-- What is reached from what is reached is reached. -/
theorem Reach.trans (h : Reach allow s t) (h' : Reach allow t u) : Reach allow s u := Relation.ReflTransGen.trans h h'

/-- One event of an allowed kind. -/
theorem Event.reach {k : EventKind} (h : Event k s t) (hk : allow k) : Reach allow s t :=
  Relation.ReflTransGen.single ⟨k, hk, h⟩

/-- With more kinds allowed, no less is reached. -/
theorem Reach.mono {wide : EventKind → Prop} (hw : ∀ k, allow k → wide k) (h : Reach allow s t) : Reach wide s t :=
  Relation.ReflTransGen.mono (fun _ _ ⟨k, hk, he⟩ => ⟨k, hw k hk, he⟩) _ _ h

/-- What every allowed event keeps holds of all that is reached. -/
theorem Reach.keeps {P : State → Prop} (hP : ∀ k s t, allow k → Event k s t → P s → P t) (h : Reach allow s t) (hs : P s) :
    P t := by
  induction h with
  | refl => exact hs
  | tail _ he ih =>
    obtain ⟨k, hk, he⟩ := he
    exact hP k _ _ hk he ih

/-- A choice that the state decides. -/
theorem Reach.ite {c : Prop} [Decidable c] (ht : c → Reach allow s t) (hu : ¬ c → Reach allow s u) :
    Reach allow s (if c then t else u) := by
  split
  · next h => exact ht h
  · next h => exact hu h

end

end Sys2Proof.Machine
end

section
/-! PROOFS. The events of the path controller: what each of its operations does to it, and that what holds of it at all times is
kept (chapter 2). -/

namespace Sys2Proof.Machine

/-! ### Moves -/

/-- A counter does not fall when it rises. -/
theorem le_satInc {w : Nat} (x : BitVec w) : x ≤ satInc x := by
  rw [BitVec.le_def, satInc_toNat]
  have := x.isLt
  omega

/-- The path controller stays as it is. -/
theorem Path.Grows.refl (p : Path) : p.Grows p := ⟨rfl, BitVec.le_refl _, BitVec.le_refl _, BitVec.le_refl _, BitVec.le_refl _⟩

/-- One step after another. -/
theorem Path.Grows.trans {p q r : Path} (h : p.Grows q) (h' : q.Grows r) : p.Grows r :=
  ⟨h'.limit.trans h.limit, BitVec.le_trans h.refused h'.refused, BitVec.le_trans h.expiries h'.expiries,
    BitVec.le_trans h.failures h'.failures, BitVec.le_trans h.unmatched h'.unmatched⟩

/-- The path controller moves on, with what it hands to the others and the alerts that come with it. -/
def State.PathMoves (s t : State) : Prop :=
  ∃ (p : Path) (claims : List WaitingClaim) (freed : Nat) (m : BitVec 6), s.path.Grows p ∧ t = { s with
    path := p, wires := { s.wires with claims := claims, spaceFreed := freed }
    alr := { s.alr with flags := s.alr.flags ||| m } }

section
variable {s t u : State}

/-- Setting no flag leaves the alert unit as it is. -/
theorem AlertUnit.setNone (a : AlertUnit) : { a with flags := a.flags ||| 0 } = a := by
  rcases a with ⟨flags, enable⟩
  simp

/-- A change of the path controller alone. -/
theorem State.pathMoves_withPath (s : State) {p : Path} (h : s.path.Grows p) : s.PathMoves (s.withPath p) :=
  ⟨p, s.wires.claims, s.wires.spaceFreed, 0, h, by rw [AlertUnit.setNone]; rfl⟩

/-- A change of its state, tracking list, ports and stall timer alone. -/
theorem State.pathMoves_state (s : State) (state : PathState) (tracking : List Item) (held : List Response)
    (issued : List Request) (timer : Timer) : s.PathMoves (s.withPath { s.path with
      state := state, tracking := tracking, held := held, issued := issued, stallTimer := timer }) :=
  s.pathMoves_withPath ⟨rfl, BitVec.le_refl _, BitVec.le_refl _, BitVec.le_refl _, BitVec.le_refl _⟩

/-- One move after another. -/
theorem State.PathMoves.trans (h : s.PathMoves t) (h' : t.PathMoves u) : s.PathMoves u := by
  obtain ⟨p, claims, freed, m, hp, rfl⟩ := h
  obtain ⟨q, claims', freed', m', hq, rfl⟩ := h'
  exact ⟨q, claims', freed', m ||| m', hp.trans hq, by simp only [BitVec.or_assoc]⟩

/-- A move that keeps the path controller sound is an event. -/
theorem State.PathMoves.reach {allow : EventKind → Prop} (h : s.PathMoves t) (hs : s.path.Sound → t.path.Sound)
    (hk : allow .path) : Reach allow s t := by
  obtain ⟨p, claims, freed, m, hp, rfl⟩ := h
  exact (Event.path s p claims freed m ⟨hp, hs⟩).reach hk

end

section
variable (s : State)

/-- A refused write moves the path controller. -/
theorem State.pathMoves_refuseWrite (r : Request) (a : Attributes) : s.PathMoves (s.refuseWrite r a) :=
  ⟨(s.refuseWrite r a).path, (s.refuseWrite r a).wires.claims, s.wires.spaceFreed, 0,
    ⟨rfl, le_satInc _, BitVec.le_refl _, BitVec.le_refl _, BitVec.le_refl _⟩, by rw [AlertUnit.setNone]; rfl⟩

/-- So does the report of a failed write. -/
theorem State.pathMoves_reportFailed (it : Item) (entry : BitVec 4) : s.PathMoves (s.reportFailed it entry) :=
  ⟨(s.reportFailed it entry).path, (s.reportFailed it entry).wires.claims, s.wires.spaceFreed, failedFlag,
    ⟨rfl, BitVec.le_refl _, BitVec.le_refl _, le_satInc _, BitVec.le_refl _⟩, rfl⟩

/-- So does the handling of a request. -/
theorem State.pathMoves_handle (w : InHand) : s.PathMoves (s.handle w) := by
  unfold State.handle
  rcases w with ⟨r, _ | a⟩
  case none => exact s.pathMoves_state ..
  case some =>
    dsimp only
    cases a.refused with
    | true => exact s.pathMoves_refuseWrite r a
    | false => cases a.form <;> cases r.kind <;> exact s.pathMoves_state ..

/-- So does the taking of a response for a head. -/
theorem State.pathMoves_takeForwarded (r : Response) (it : Item) (rest : List Item) :
    s.PathMoves (s.takeForwarded r it rest) := by
  rcases s.takeForwarded_cases r it rest with ⟨entry, -, -, -, h⟩ | ⟨-, h⟩
  · rw [h]
    exact (s.pathMoves_state ..).trans (State.pathMoves_reportFailed _ it entry)
  · rw [h]
    exact s.pathMoves_state ..

/-- So does that of the response to a before-image read. -/
theorem State.pathMoves_takePreRead (r : Response) (rest : List Item) : s.PathMoves (s.takePreRead r rest) := by
  rcases s.takePreRead_cases r rest with ⟨q, a, -, h⟩ | ⟨-, h⟩ <;> rw [h] <;> exact s.pathMoves_state ..

end

/-- So does the taking of responses at the port. -/
theorem State.pathMoves_takeResponses (l : List Response) (s : State) : s.PathMoves (State.takeResponses l s) := by
  induction l generalizing s with
  | nil => exact s.pathMoves_state ..
  | cons r l ih =>
    cases h : headAction s.path.tracking with
    | unmatched =>
      rw [State.takeResponses_unmatched _ _ _ h]
      have hu : s.PathMoves s.unmatched :=
        s.pathMoves_withPath ⟨rfl, BitVec.le_refl _, BitVec.le_refl _, BitVec.le_refl _, le_satInc _⟩
      exact hu.trans (ih _)
    | preRead rest =>
      rw [State.takeResponses_preRead _ _ _ h]
      exact (s.pathMoves_takePreRead r rest).trans (ih _)
    | forwarded it rest =>
      rw [State.takeResponses_forwarded _ _ _ h]
      exact (s.pathMoves_takeForwarded r it rest).trans (State.pathMoves_state ..)
    | heldBack =>
      rw [State.takeResponses_heldBack _ _ _ h]
      exact s.pathMoves_state ..

/-- So does the end of WAIT-SLOT. -/
theorem State.pathMoves_endWaitSlot (s : State) : s.PathMoves s.endWaitSlot := by
  unfold State.endWaitSlot
  split
  · split
    · exact s.pathMoves_handle _
    · exact s.pathMoves_state ..
  · exact s.pathMoves_state ..

/-! ### What holds of the path controller in the middle of an operation -/

/-- The tracking list and the path state fit together, but for the full list of WAIT-SLOT. -/
structure Path.Fits (p : Path) : Prop where
  places  : p.tracking.length ≤ 8
  order   : onlyHeadAnswers p.tracking
  issued  : p.issued.length = p.tracking.countP Item.awaitsMemory
  plain   : (∀ q a, p.state ≠ .preRead q a) → p.tracking.all (fun it => !it.isPreRead)
  reading : ∀ q a, p.state = .preRead q a → (p.tracking.dropLast.all fun it => !it.isPreRead) ∧
    (p.tracking.getLast?.any fun it => it.isPreRead && decide (it.phase = .waiting))
  room    : ∀ r a body, p.state = .claiming r a body ∨ p.state = .hold r a body → p.tracking.length ≤ 7
  timer   : p.stallTimer ≠ none ↔ ∃ r a body, p.state = .hold r a body

/-- What holds of the path controller at all times: it fits, the ports stand as they do after an evaluation, and in WAIT-SLOT
the list is full. -/
theorem Path.sound_iff (p : Path) : p.Sound ↔
    p.Fits ∧ (State.reset.withPath p).portsSound ∧ ∀ w, p.state = .waitSlot w → p.tracking.length = 8 := by
  constructor
  · rintro ⟨⟨hplaces, horder, hm⟩, hports, hstall⟩
    have hissued : p.issued.length = p.tracking.countP Item.awaitsMemory := hports.2.1
    simp only [State.withPath_fields] at hplaces horder hm
    simp only [State.stallSound, State.withPath_fields] at hstall
    cases hs : p.state <;> simp only [hs] at hm hstall <;>
      exact ⟨⟨hplaces, horder, hissued, by simp_all, by simp_all, by simp_all, by simp_all⟩, hports, by simp_all⟩
  · rintro ⟨hfits, hports, hfull⟩
    obtain ⟨hplaces, horder, -, hplain, hreading, hroom, htimer⟩ := hfits
    refine ⟨⟨hplaces, horder, ?_⟩, hports, ?_⟩
    · simp only [State.withPath_fields]
      cases hs : p.state <;> simp_all
    · simp only [State.stallSound, State.withPath_fields]
      cases hs : p.state <;> simp_all

/-- It speaks of the path state, the tracking list, the requests issued and the stall timer alone. -/
theorem Path.Fits.congr {p q : Path} (h : p.Fits) (hstate : q.state = p.state) (htracking : q.tracking = p.tracking)
    (hissued : q.issued = p.issued) (htimer : q.stallTimer = p.stallTimer) : q.Fits := by
  obtain ⟨hplaces, horder, hcount, hplain, hreading, hroom, hstall⟩ := h
  exact ⟨by rwa [htracking], by rwa [htracking], by rwa [hissued, htracking], by rwa [hstate, htracking],
    by rwa [hstate, htracking], by rwa [hstate, htracking], by rwa [hstate, htimer]⟩

/-- A head that stands for no before-image read answers upstream. -/
theorem Path.Fits.headAnswers {p q : Path} (h : p.Fits) {it : Item} {rest : List Item} {x : Response}
    (ht : p.tracking = it :: rest) (hit : it.isPreRead = false) (hstate : q.state = p.state)
    (htimer : q.stallTimer = p.stallTimer) (htracking : q.tracking = { it with phase := .answering x } :: rest)
    (hissued : q.issued.length = rest.countP Item.awaitsMemory) : q.Fits := by
  obtain ⟨hplaces, horder, -, hplain, hreading, hroom, hstall⟩ := h
  have hanswers : ({ it with phase := .answering x } : Item).isPreRead = false := hit
  rw [ht] at hplaces horder hplain hreading hroom
  refine ⟨?_, ?_, ?_, ?_, ?_, ?_, by rwa [hstate, htimer]⟩ <;> rw [htracking]
  · exact hplaces
  · exact horder
  · rw [hissued, List.countP_cons_of_neg (by simp [Item.awaitsMemory])]
  · rw [hstate]
    intro hne
    have hall := hplain hne
    simp only [List.all_cons, hanswers, Bool.not_false, Bool.true_and] at hall ⊢
    exact (Bool.and_eq_true _ _ ▸ hall).2
  · rw [hstate]
    intro r a hs
    have hlast := hreading r a hs
    cases rest with
    | nil => simp [hit] at hlast
    | cons head more => simpa [hanswers, hit] using hlast
  · rwa [hstate]

/-- So does a LOCAL head that has been evaluated. -/
theorem Path.Fits.answerLocal {p q : Path} (h : p.Fits) (hstate : q.state = p.state) (htimer : q.stallTimer = p.stallTimer)
    (htracking : q.tracking = answerLocal p.tracking) (hissued : q.issued = p.issued) : q.Fits := by
  rcases ht : p.tracking with _ | ⟨it, rest⟩
  · exact h.congr hstate (by rw [htracking, ht]; rfl) hissued htimer
  · by_cases hl : ∃ st, it.cls = .local st ∧ it.phase = .waiting
    · obtain ⟨st, hc, hp⟩ := hl
      have hnot : ¬ it.awaitsMemory = true := by simp [Item.awaitsMemory_iff, hc]
      refine h.headAnswers ht (by simp [Item.isPreRead, hc]) hstate htimer (x := ⟨st, []⟩) ?_ ?_
      · rw [htracking, ht, answerLocal_local hc hp]
      · rw [hissued, h.issued, ht, List.countP_cons_of_neg hnot]
    · refine h.congr hstate ?_ hissued htimer
      rw [htracking]
      refine answerLocal_eq_self _ ?_
      rw [ht]
      cases hc : it.cls <;> simp_all

/-- The taking of responses keeps what holds in the middle of an operation. -/
theorem State.takeResponses_fits (l : List Response) (s : State) (h : s.path.Fits) : (State.takeResponses l s).path.Fits := by
  induction l generalizing s with
  | nil => exact h.answerLocal rfl rfl rfl rfl
  | cons r l ih =>
    cases ha : headAction s.path.tracking with
    | unmatched =>
      rw [State.takeResponses_unmatched _ _ _ ha]
      exact ih _ (h.congr rfl rfl rfl rfl)
    | preRead rest =>
      rw [State.takeResponses_preRead _ _ _ ha]
      obtain ⟨it, ht, hp, hc⟩ := headAction_eq_preRead ha
      have hread : it.isPreRead = true := by simp [Item.isPreRead, hc]
      have hstate : ∃ q a, s.path.state = .preRead q a := by
        by_contra hne
        have hall := h.plain fun q a hs => hne ⟨q, a, hs⟩
        simp [ht, hread] at hall
      obtain ⟨q, a, hs⟩ := hstate
      have hrest : rest = [] := by
        have hlast := (h.reading q a hs).1
        cases rest with
        | nil => rfl
        | cons head more => simp [ht, hread] at hlast
      obtain ⟨q, a, -, hr⟩ | ⟨hne, -⟩ := s.takePreRead_cases r rest
      · rw [hr, hrest]
        have htimer : s.path.stallTimer = none := by
          by_contra hrun
          obtain ⟨_, _, _, hhold⟩ := h.timer.1 hrun
          rw [hs] at hhold
          exact absurd hhold nofun
        have hissued : s.path.issued.length = 1 := by
          rw [h.issued, ht, hrest, List.countP_cons_of_pos (it.awaitsMemory_iff.2 ⟨hp, by simp [hc]⟩)]
          rfl
        exact ih _ ⟨by simp, List.forall_mem_nil _, by simp [hissued], by simp, by simp, by simp, by simp [htimer]⟩
      · exact absurd hs (hne q a)
    | forwarded it rest =>
      rw [State.takeResponses_forwarded _ _ _ ha]
      obtain ⟨ht, hp, hc⟩ := headAction_eq_forwarded ha
      have hit : it.awaitsMemory = true := it.awaitsMemory_iff.2 ⟨hp, by obtain hc | ⟨_, _, hc⟩ := hc <;> simp [hc]⟩
      have hplain : it.isPreRead = false := by obtain hc | ⟨_, _, hc⟩ := hc <;> simp [Item.isPreRead, hc]
      have hissued : (s.path.issued.drop 1).length = rest.countP Item.awaitsMemory := by
        rw [List.length_drop, h.issued, ht, List.countP_cons_of_pos hit, Nat.add_sub_cancel]
      obtain ⟨_, -, -, -, hr⟩ | ⟨-, hr⟩ := s.takeForwarded_cases r it rest <;> rw [hr] <;>
        exact h.headAnswers ht hplain rfl rfl rfl hissued
    | heldBack =>
      rw [State.takeResponses_heldBack _ _ _ ha]
      exact h.answerLocal rfl rfl rfl rfl

/-- After an evaluation, what holds at all times holds again, but for the full list of WAIT-SLOT. -/
theorem State.evaluateHead_sound (s : State) (h : s.path.Fits) (hw : ∀ w, s.path.state ≠ .waitSlot w) :
    s.evaluateHead.path.Sound :=
  (Path.sound_iff _).2 ⟨s.takeResponses_fits _ h, State.takeResponses_portsSound _ s h.issued,
    fun w hs => absurd ((s.takeResponses_waitSlot _ w).1 hs) (hw w)⟩

/-- A waiting item at the end of the list does not change that only the head answers. -/
theorem onlyHeadAnswers_append {l : List Item} (h : onlyHeadAnswers l) {it : Item} (hp : it.phase = .waiting) :
    onlyHeadAnswers (l ++ [it]) := by
  rcases l with _ | ⟨head, rest⟩
  · exact List.forall_mem_nil _
  · intro x hx
    simp only [List.cons_append, List.drop_succ_cons, List.drop_zero, List.mem_append, List.mem_singleton] at hx
    exact hx.elim (h x) fun he => he ▸ hp

/-- An item joins the list of a path controller that has none of a before-image read and goes back to IDLE. -/
theorem Path.Fits.appended {p q : Path} (h : p.Fits) (hroom : p.tracking.length ≤ 7) {it : Item}
    (hplain : p.tracking.all (fun it => !it.isPreRead)) (hit : it.isPreRead = false) (hp : it.phase = .waiting)
    (hstate : q.state = .idle) (htimer : q.stallTimer = none) (htracking : q.tracking = p.tracking ++ [it])
    (hissued : q.issued.length = p.issued.length + if it.awaitsMemory then 1 else 0) : q.Fits := by
  refine ⟨?_, ?_, ?_, fun _ => ?_, ?_, ?_, ?_⟩
  · rw [htracking, List.length_append]
    exact Nat.succ_le_succ hroom
  · rw [htracking]
    exact onlyHeadAnswers_append h.order hp
  · rw [hissued, htracking, List.countP_append, h.issued, List.countP_singleton]
  · rw [htracking, List.all_append, hplain]
    simp [hit]
  · rw [hstate]; exact nofun
  · rw [hstate]; rintro _ _ _ (h | h) <;> exact absurd h nofun
  · simp [hstate, htimer]

/-- Forwarding, with the stall timer stopped. -/
theorem Path.Fits.forwarded {p q : Path} (h : p.Fits) (hroom : p.tracking.length ≤ 7)
    (hs : ∀ q a, p.state ≠ .preRead q a) {cls : ItemClass} {r : Request} (hc : ∀ st, cls ≠ .local st) (hread : cls ≠ .preRead)
    (hstate : q.state = .idle) (htimer : q.stallTimer = none) (htracking : q.tracking = p.tracking ++ [itemOf cls r])
    (hissued : q.issued = p.issued ++ [r]) : q.Fits :=
  h.appended hroom (h.plain hs) (decide_eq_false hread) rfl hstate htimer htracking
    (by rw [hissued, List.length_append, itemOf_awaitsMemory cls r hc]; rfl)

/-- The handling of a request, once a place is free, keeps what holds in the middle of an operation. -/
theorem State.handle_fits (s : State) (w : InHand) (h : s.path.Fits) (hroom : s.path.tracking.length ≤ 7)
    (hs : s.path.state = .idle ∨ ∃ w, s.path.state = .waitSlot w) :
    (s.handle w).path.Fits ∧ ∀ w', (s.handle w).path.state ≠ .waitSlot w' := by
  have hread : ∀ q a, s.path.state ≠ .preRead q a := by
    rintro q a he
    obtain hs | ⟨_, hs⟩ := hs <;> rw [hs] at he <;> exact absurd he nofun
  have htimer : s.path.stallTimer = none := by
    by_contra hrun
    obtain ⟨_, _, _, he⟩ := h.timer.1 hrun
    obtain hs | ⟨_, hs⟩ := hs <;> rw [hs] at he <;> exact absurd he nofun
  have hplain := h.plain hread
  have hforward (r : Request) (cls : ItemClass) (hc : ∀ st, cls ≠ .local st) (hr : cls ≠ .preRead) :
      (s.forward r cls).path.Fits := h.forwarded hroom hread hc hr rfl htimer rfl rfl
  rcases w with ⟨r, _ | a⟩
  case none => exact ⟨hforward r .unwatched nofun nofun, nofun⟩
  case some =>
    cases href : a.refused with
    | true =>
      rw [State.handle_refused href]
      exact ⟨h.appended hroom hplain rfl rfl rfl htimer rfl rfl, nofun⟩
    | false =>
      have hclaim (body : RecordBody) : (s.makeClaim r a body).path.Fits :=
        ⟨h.places, h.order, h.issued, fun _ => hplain, nofun, fun _ _ _ _ => hroom,
          by simp [State.makeClaim, htimer]⟩
      have hcaptured (hf : a.form = .address ∨ a.form = .after) :
          (s.handle ⟨r, some a⟩).path.Fits ∧ ∀ w', (s.handle ⟨r, some a⟩).path.state ≠ .waitSlot w' := by
        rw [State.handle_captured href hf]
        exact ⟨hclaim _, nofun⟩
      cases hform : a.form with
      | none =>
        rw [State.handle_none href hform]
        exact ⟨hforward r _ nofun nofun, nofun⟩
      | address => exact hcaptured (.inl hform)
      | after => exact hcaptured (.inr hform)
      | both =>
        cases hk : r.kind with
        | read =>
          have he : s.handle ⟨r, some a⟩ = s.makeClaim r a (recordOf r a none) := by
            simp only [State.handle, href, hform, hk, Bool.false_eq_true, if_false]
          rw [he]
          exact ⟨hclaim _, nofun⟩
        | write =>
          rw [State.handle_both href hform hk]
          refine ⟨⟨?_, onlyHeadAnswers_append h.order rfl, ?_, ?_, ?_, ?_, ?_⟩, nofun⟩
          · simp only [State.startPreRead, State.withPath_fields, List.length_append, List.length_singleton]
            omega
          · simp [State.startPreRead, h.issued, List.countP_append, itemOf, Item.awaitsMemory]
          · exact fun hne => absurd rfl (hne r a)
          · intro _ _ _
            simpa [State.startPreRead, itemOf, Item.isPreRead] using hplain
          · rintro _ _ _ (he | he) <;> exact absurd he nofun
          · simp [State.startPreRead, htimer]

/-! ### The events of requests, responses and acceptances -/

section
variable {allow : EventKind → Prop} {s : State}

/-- The taking of a request (R21). -/
theorem State.takeRequest_reach (r : Request) (hs : s.path.state = .idle) (hp : allow .path) (hh : allow .hit) :
    Reach allow s (s.takeRequest r) := by
  have hclassify : Reach allow s (s.classify r).1 := by
    cases hg : s.wtab.governing r with
    | none => rw [State.classify_unwatched r hg]; exact Reach.refl s
    | some found =>
      obtain ⟨e, k⟩ := found
      rw [State.classify_watched r hg]
      exact (Event.hit s e k ((s.wtab.governing_eq_some_iff r e k).1 hg).1).reach hh
  refine hclassify.trans ?_
  have hpath : (s.classify r).1.path = s.path := State.classify_path r
  rcases Nat.lt_or_ge s.path.tracking.length 8 with hroom | hfull
  · rw [State.takeRequest_place r hroom]
    refine State.PathMoves.reach ((State.pathMoves_handle _ _).trans (State.pathMoves_takeResponses _ _)) (fun hsound => ?_) hp
    rw [hpath] at hsound
    obtain ⟨hfits, -, -⟩ := s.path.sound_iff.1 hsound
    obtain ⟨hfits, hslot⟩ := (s.classify r).1.handle_fits ⟨r, (s.classify r).2⟩ (by rwa [hpath])
      (by rw [hpath]; exact Nat.le_of_lt_succ hroom) (by rw [hpath]; exact .inl hs)
    exact State.evaluateHead_sound _ hfits hslot
  · rw [State.takeRequest_full r hfull]
    refine State.PathMoves.reach ?_ (fun hsound => ?_) hp
    · rw [← hpath]
      exact State.pathMoves_state ..
    · rw [hpath] at hsound
      obtain ⟨hfits, hports, -⟩ := s.path.sound_iff.1 hsound
      refine (Path.sound_iff _).2 ⟨⟨hfits.places, hfits.order, hfits.issued, fun _ => hfits.plain (by simp [hs]), by simp,
        by simp, ?_⟩, hports, fun _ _ => Nat.le_antisymm hfits.places hfull⟩
      have htimer := hfits.timer
      simp_all

/-- A response from downstream (R25). -/
theorem State.downstreamResponse_reach (r : Response) (hp : allow .path) :
    Reach allow s (State.takeResponses (s.path.held ++ [r]) s).endWaitSlot.evaluateHead := by
  refine State.PathMoves.reach (((s.pathMoves_takeResponses _).trans (State.pathMoves_endWaitSlot _)).trans
    (State.pathMoves_takeResponses _ _)) (fun hsound => ?_) hp
  obtain ⟨hfits, -, hfull⟩ := s.path.sound_iff.1 hsound
  have hports := State.takeResponses_portsSound (s.path.held ++ [r]) s hfits.issued
  have hplaces (w : InHand) (hw : (State.takeResponses (s.path.held ++ [r]) s).path.state = .waitSlot w) :
      8 ≤ (State.takeResponses (s.path.held ++ [r]) s).path.tracking.length := by
    have hs := (s.takeResponses_waitSlot _ w).1 hw
    rw [s.takeResponses_length _ (hfits.plain (by simp [hs])), hfull w hs]
  have hslot : (State.takeResponses (s.path.held ++ [r]) s).endWaitSlot = State.takeResponses (s.path.held ++ [r]) s := by
    by_cases hw : ∃ w, (State.takeResponses (s.path.held ++ [r]) s).path.state = .waitSlot w
    · obtain ⟨w, hw⟩ := hw
      exact State.endWaitSlot_full _ (hplaces w hw)
    · exact State.endWaitSlot_other _ fun w h => hw ⟨w, h⟩
  rw [hslot, State.evaluateHead_eq_self _ hports]
  have hfits' := s.takeResponses_fits (s.path.held ++ [r]) hfits
  exact (Path.sound_iff _).2 ⟨hfits', hports, fun w hw => Nat.le_antisymm hfits'.places (hplaces w hw)⟩

/-- An answered head leaves the list. -/
theorem Path.Fits.headRemoved {p q : Path} (h : p.Fits) {it : Item} {rest : List Item} {x : Response}
    (ht : p.tracking = it :: rest) (hp : it.phase = .answering x) (hstate : q.state = p.state)
    (htimer : q.stallTimer = p.stallTimer) (htracking : q.tracking = rest) (hissued : q.issued = p.issued) : q.Fits := by
  obtain ⟨hplaces, horder, hcount, hplain, hreading, hroom, hstall⟩ := h
  have hnot : ¬ it.awaitsMemory = true := by simp [Item.awaitsMemory_iff, hp]
  rw [ht] at hplaces horder hplain hreading hroom hcount
  rw [List.countP_cons_of_neg hnot] at hcount
  refine ⟨?_, ?_, ?_, ?_, ?_, ?_, by rwa [hstate, htimer]⟩ <;> rw [htracking]
  · exact Nat.le_of_succ_le hplaces
  · exact fun y hy => horder y (List.mem_of_mem_drop hy)
  · rw [hissued, hcount]
  · rw [hstate]
    exact fun hne => (Bool.and_eq_true _ _ ▸ hplain hne).2
  · rw [hstate]
    intro r a hs
    have hlast := hreading r a hs
    cases rest with
    | nil => simp [hp] at hlast
    | cons head more =>
      simp only [List.dropLast_cons_cons, List.all_cons, Bool.and_eq_true, List.getLast?_cons_cons] at hlast
      exact ⟨hlast.1.2, hlast.2⟩
  · rw [hstate]
    exact fun r a body hs => Nat.le_of_succ_le (hroom r a body hs)

/-- The offered response is accepted (R29). -/
theorem State.acceptResponse_reach {it : Item} {rest : List Item} {x : Response} (ht : s.path.tracking = it :: rest)
    (hph : it.phase = .answering x) (hp : allow .path) : Reach allow s (s.acceptResponse rest) := by
  refine State.PathMoves.reach ((((s.pathMoves_state ..).trans (State.pathMoves_takeResponses _ _)).trans
    (State.pathMoves_endWaitSlot _)).trans (State.pathMoves_takeResponses _ _)) (fun hsound => ?_) hp
  obtain ⟨hfits, -, hfull⟩ := s.path.sound_iff.1 hsound
  have hrest : (s.withPath { s.path with tracking := rest }).path.Fits := hfits.headRemoved ht hph rfl rfl rfl rfl
  have heval : (s.withPath { s.path with tracking := rest }).evaluateHead.path.Fits := State.takeResponses_fits _ _ hrest
  unfold State.acceptResponse
  by_cases hw : ∃ w, (s.withPath { s.path with tracking := rest }).evaluateHead.path.state = .waitSlot w
  · obtain ⟨w, hw⟩ := hw
    have hs := (State.takeResponses_waitSlot _ _ w).1 hw
    have hlength : (s.withPath { s.path with tracking := rest }).evaluateHead.path.tracking.length = 7 := by
      have hlist := hfull w hs
      rw [ht] at hlist
      exact (State.takeResponses_length _ _ (hrest.plain (by rw [hs]; exact nofun))).trans (Nat.succ.inj hlist)
    rw [State.endWaitSlot_free _ w hw (by omega)]
    obtain ⟨hfits, hslot⟩ := State.handle_fits _ w heval (by omega) (.inr ⟨w, hw⟩)
    exact State.evaluateHead_sound _ hfits hslot
  · rw [State.endWaitSlot_other _ fun w h => hw ⟨w, h⟩]
    exact State.evaluateHead_sound _ heval fun w h => hw ⟨w, h⟩

end

end Sys2Proof.Machine
end

section
/-! PROOFS. The events of the store side of the journal controller: closing, claims and losses (sections 4.1 to 4.5). -/

namespace Sys2Proof.Machine

/-! ### Lists of frames -/

/-- A run of sequences goes on with the next sequence. -/
theorem runsUpTo_append {next : Seq} {l : List Seq} (h : runsUpTo next l) : runsUpTo (next + 1) (l ++ [next]) := by
  induction l with
  | nil => exact ⟨by simp, trivial⟩
  | cons x xs ih =>
    obtain ⟨hx, hxs⟩ := h
    refine ⟨?_, ih hxs⟩
    calc x + BitVec.ofNat 8 ((xs ++ [next]).length + 1)
      _ = x + BitVec.ofNat 8 (xs.length + 1) + 1 := by
        rw [List.length_append, List.length_singleton, BitVec.ofNat_add (xs.length + 1) 1, ← BitVec.add_assoc]
        rfl
      _ = next + 1 := by rw [hx]

/-- A run of sequences stays one when it loses its first ones. -/
theorem runsUpTo_of_suffix {next : Seq} {l m : List Seq} (h : runsUpTo next m) (hs : l <:+ m) : runsUpTo next l := by
  induction m with
  | nil => rw [List.suffix_nil.1 hs]; trivial
  | cons x xs ih =>
    obtain he | hs := List.suffix_cons_iff.1 hs
    · rwa [he]
    · exact ih h.2 hs

/-- A CLOSED frame may follow the others. -/
theorem statesInOrder_append {l : List Frame} (h : statesInOrder l) {f : Frame} (hf : f.state = .closed) :
    statesInOrder (l ++ [f]) := by
  induction l with
  | nil => simp [statesInOrder, hf]
  | cons g gs ih =>
    simp only [statesInOrder, List.cons_append] at h ⊢
    cases hg : g.state <;> simp only [hg] at h ⊢
    case sent => exact ih h
    all_goals
      intro x hx
      rw [List.mem_append, List.mem_singleton] at hx
      exact hx.elim (h x) fun he => he ▸ hf

/-- The bytes of two runs of records. -/
theorem bytesOf_append (l m : List Record) : bytesOf (l ++ m) = bytesOf l + bytesOf m := by
  simp [bytesOf]

/-! ### Steps of the store -/

/-- Nothing changes. -/
theorem StoreStep.refl (j : Journal) : StoreStep j j :=
  ⟨rfl, rfl, rfl, BitVec.le_refl _, BitVec.le_refl _, BitVec.le_refl _, ⟨[], by simp, nofun⟩, fun _ _ h => h⟩

/-- One step after another. -/
theorem StoreStep.trans {j k l : Journal} (h : StoreStep j k) (h' : StoreStep k l) : StoreStep j l := by
  obtain ⟨new, hnew, hclosed⟩ := h.added
  obtain ⟨new', hnew', hclosed'⟩ := h'.added
  refine ⟨h'.limit.trans h.limit, h'.idle.trans h.idle, h'.epoch.trans h.epoch, BitVec.le_trans h.appended h'.appended,
    BitVec.le_trans h.lost h'.lost, BitVec.le_trans h.closed h'.closed, ⟨new ++ new', ?_, ?_⟩, fun hl hu hs => ?_⟩
  · rw [hnew', hnew, List.append_assoc]
  · intro f hf
    exact (List.mem_append.1 hf).elim (hclosed f) (hclosed' f)
  · exact h'.sound (h.limit ▸ hl) (h.limit ▸ hu) (h.sound hl hu hs)

section
variable (j : Journal)

/-- Closing the OPEN frame. -/
theorem Journal.closeOpen_step (cause : CloseCause) : StoreStep j (j.closeOpen cause) := by
  cases hopen : j.openFrame with
  | none => rw [show j.closeOpen cause = j by simp only [Journal.closeOpen, hopen]]; exact StoreStep.refl j
  | some f =>
    have heq : j.closeOpen cause = { j with
        frames := j.frames ++ [closedFrame f cause], openFrame := none, idleTimer := none,
        framesClosed := satInc j.framesClosed } := by simp only [Journal.closeOpen, hopen]
    rw [heq]
    refine ⟨rfl, rfl, rfl, BitVec.le_refl _, BitVec.le_refl _, le_satInc _, ⟨[closedFrame f cause], rfl, ?_⟩, fun _ _ hs => ?_⟩
    · intro g hg
      rw [List.mem_singleton.1 hg]
      exact ⟨rfl, rfl⟩
    · obtain ⟨hheld, hused, hseqs, horder, hframes, hsound, -⟩ := hs
      obtain ⟨hrecords, hbytes, -⟩ := hsound f hopen
      simp only [Journal.framesHeld, Journal.storeUsed, Journal.heldSeqs, hopen, Option.isSome_some, if_true] at hheld hused hseqs
      refine ⟨by simpa [Journal.framesHeld] using hheld, ?_, ?_, statesInOrder_append horder rfl, ?_, nofun, fun _ => rfl⟩
      · simpa [Journal.storeUsed, closedFrame] using hused
      · simpa [Journal.heldSeqs, closedFrame] using hseqs
      · intro g hg
        rw [List.mem_append, List.mem_singleton] at hg
        exact hg.elim (hframes g) fun he => he ▸ ⟨hrecords, hbytes, Nat.zero_le 15⟩

/-- The test of R64. -/
theorem Journal.closeIfUnfit_step (need : Nat) : StoreStep j (j.closeIfUnfit need) := by
  obtain h | h | h := j.closeIfUnfit_cases need <;> rw [h]
  · exact StoreStep.refl j
  · exact j.closeOpen_step _
  · exact j.closeOpen_step _

/-- A frame that is still OPEN after the test of R64 has the claim's bytes left. -/
theorem Journal.closeIfUnfit_fits (need : Nat) (f : OpenFrame) (h : (j.closeIfUnfit need).openFrame = some f) :
    bytesOf f.records + need ≤ (j.closeIfUnfit need).frameLimit := by
  cases hopen : j.openFrame with
  | none =>
    rw [Journal.closeIfUnfit_none j hopen, hopen] at h
    exact absurd h nofun
  | some g =>
    by_cases hfit : g.age ≤ 65535 ∧ bytesOf g.records + need ≤ j.frameLimit
    · rw [Journal.closeIfUnfit_fit j hopen hfit.1 hfit.2] at h ⊢
      obtain rfl : g = f := Option.some.inj (hopen.symm.trans h)
      exact hfit.2
    · have hunfit := (not_and_or.1 hfit).imp Nat.lt_of_not_le Nat.lt_of_not_le
      rw [Journal.closeIfUnfit_unfit j hopen hunfit, (j.closeOpen_kept _).1] at h
      exact absurd h nofun

/-- A loss counted. -/
theorem Journal.countLost_step : StoreStep j j.countLost :=
  ⟨rfl, rfl, rfl, BitVec.le_refl _, le_satInc _, BitVec.le_refl _, ⟨[], by simp [Journal.countLost], nofun⟩, fun _ _ h => by
    obtain ⟨hheld, hused, hseqs, horder, hframes, hsound, hidle⟩ := h
    exact ⟨hheld, hused, hseqs, horder, hframes, hsound, hidle⟩⟩

/-- The bytes that an append places are those that it needs. -/
theorem Journal.placedRecords_bytes (now : BitVec 32) (body : RecordBody) :
    bytesOf (j.placedRecords now body) = j.needed body := by
  rw [Journal.needed_eq]
  by_cases h : j.pendingLoss = 0
  · simp only [Journal.placedRecords, h, if_true, List.nil_append, bytesOf, List.map_singleton, List.sum_singleton, Nat.add_zero]
  · simp only [Journal.placedRecords, h, if_false, bytesOf, List.map_append, List.map_singleton, List.sum_append,
      List.sum_singleton, recordLength]
    exact Nat.add_comm _ _

/-- An append into a frame with room for it, in a store with room for it. -/
theorem Journal.append_step (now : BitVec 32) (body : RecordBody)
    (hfit : ∀ f, j.openFrame = some f → bytesOf f.records + j.needed body ≤ j.frameLimit)
    (hroom : j.hasRoom (j.needed body) = true) : StoreStep j (j.append now body) := by
  refine ⟨rfl, rfl, rfl, ?_, BitVec.le_refl _, BitVec.le_refl _, ⟨[], by simp [Journal.append], nofun⟩, fun hl hu hs => ?_⟩
  · unfold Journal.append
    dsimp only
    split
    · exact le_satInc _
    · exact BitVec.le_trans (le_satInc _) (le_satInc _)
  · obtain ⟨hheld, hused, hseqs, horder, hframes, hsound, hidle⟩ := hs
    have hplaced := j.placedRecords_bytes now body
    have hkept : (j.append now body).frames = j.frames := rfl
    have hsome : j.placedRecords now body ≠ [] := by simp [Journal.placedRecords]
    cases hopen : j.openFrame with
    | some f =>
      obtain ⟨-, hbytes, hage⟩ := hsound f hopen
      have hspace := (j.hasRoom_iff_open (j.needed body) hopen).1 hroom
      have hneed := hfit f hopen
      have heq : (j.append now body).openFrame = some { f with records := f.records ++ j.placedRecords now body } := by
        simp [Journal.frameForAppend, hopen]
      have hnext : (j.append now body).nextSeq = j.nextSeq := by simp [Journal.append, hopen]
      simp only [Journal.framesHeld, Journal.storeUsed, Journal.heldSeqs, hopen, Option.isSome_some, if_true] at hheld hused hseqs hspace
      refine ⟨?_, ?_, ?_, horder, hframes, ?_, ?_⟩
      · simpa only [Journal.framesHeld, heq, hkept, Option.isSome_some, if_true] using hheld
      · simp only [Journal.storeUsed, heq, hkept, bytesOf_append, hplaced]
        omega
      · simpa only [Journal.heldSeqs, heq, hkept, hnext] using hseqs
      · intro g hg
        rw [heq] at hg
        obtain rfl := Option.some.inj hg
        exact ⟨by simp [hsome], by rw [bytesOf_append, hplaced]; omega, hage⟩
      · rw [heq]; exact nofun
    | none =>
      obtain ⟨hspace, hplaces⟩ := (j.hasRoom_iff_none (j.needed body) hopen).1 hroom
      have heq : (j.append now body).openFrame = some ⟨j.nextSeq, now, 0, j.placedRecords now body⟩ := by
        simp [Journal.frameForAppend, hopen]
      have hnext : (j.append now body).nextSeq = j.nextSeq + 1 := by simp [Journal.append, hopen]
      have hneed : j.needed body ≤ 162 := by
        have hlength := (recordBytesMatchLength ⟨body, 0⟩).2.2.1
        rw [j.needed_eq]
        split <;> simp only at hlength <;> omega
      simp only [Journal.framesHeld, Journal.storeUsed, Journal.heldSeqs, hopen, List.append_nil] at hheld hused hseqs hspace
      refine ⟨?_, ?_, ?_, horder, hframes, ?_, ?_⟩
      · simp only [Journal.framesHeld, heq, hkept, Option.isSome_some, if_true]
        exact hplaces
      · simp only [Journal.storeUsed, heq, hkept, hplaced]
        omega
      · simp only [Journal.heldSeqs, heq, hkept, hnext]
        exact runsUpTo_append hseqs
      · intro g hg
        rw [heq] at hg
        obtain rfl := Option.some.inj hg
        exact ⟨hsome, by simp only [hplaced]; omega, by simp⟩
      · rw [heq]; exact nofun

/-- A claim taken whole. -/
theorem Journal.take_step (now : BitVec 32) (c : Claim) : StoreStep j (j.take now c).1 := by
  have hclosed := j.closeIfUnfit_step (j.needed c.body)
  have hneed : (j.closeIfUnfit (j.needed c.body)).needed c.body = j.needed c.body := by
    unfold Journal.needed
    obtain h | h | h := j.closeIfUnfit_cases (recordLength c.body + if j.pendingLoss = 0 then 0 else Config.lossBytes) <;>
      rw [h] <;> simp
  obtain ⟨hroom, h⟩ | ⟨-, -, h⟩ | ⟨-, -, h⟩ := j.take_cases now c <;> rw [h]
  · have happend := (j.closeIfUnfit (j.needed c.body)).append_step now c.body
      (fun f hf => by rw [hneed]; exact j.closeIfUnfit_fits _ f hf) (by rwa [hneed])
    refine hclosed.trans (happend.trans ?_)
    cases c.close
    · exact StoreStep.refl _
    · exact Journal.closeOpen_step _ _
    · exact Journal.closeOpen_step _ _
  · exact hclosed.trans (Journal.countLost_step _)
  · exact hclosed

/-- The idle-close timer stopped. -/
theorem Journal.idleStopped_step : StoreStep j { j with idleTimer := none } :=
  ⟨rfl, rfl, rfl, BitVec.le_refl _, BitVec.le_refl _, BitVec.le_refl _, ⟨[], by simp, nofun⟩, fun _ _ h => by
    obtain ⟨hheld, hused, hseqs, horder, hframes, hsound, -⟩ := h
    exact ⟨hheld, hused, hseqs, horder, hframes, hsound, fun _ => rfl⟩⟩

end

/-! ### The events -/

section
variable {allow : EventKind → Prop} (s : State)

/-- Alerts set by the path side. -/
theorem State.setAlert_reach (m : BitVec 6) (hp : allow .path) : Reach allow s (s.setAlert m) :=
  State.PathMoves.reach ⟨s.path, s.wires.claims, s.wires.spaceFreed, m, Path.Grows.refl _, rfl⟩ id hp

/-- The claims that wait, replaced. -/
theorem State.withClaims_reach (claims : List WaitingClaim) (hp : allow .path) :
    Reach allow s (s.withWires { s.wires with claims := claims }) :=
  State.PathMoves.reach ⟨s.path, claims, s.wires.spaceFreed, 0, Path.Grows.refl _, by rw [AlertUnit.setNone]; rfl⟩ id hp

/-- The space-freed reports that wait, replaced. -/
theorem State.withFreed_reach (freed : Nat) (hp : allow .path) :
    Reach allow s (s.withWires { s.wires with spaceFreed := freed }) :=
  State.PathMoves.reach ⟨s.path, s.wires.claims, freed, 0, Path.Grows.refl _, by rw [AlertUnit.setNone]; rfl⟩ id hp

/-- A claim posted. -/
theorem State.postClaim_reach (who : Claimant) (c : Claim) (hp : allow .path) : Reach allow s (s.postClaim who c) :=
  s.withClaims_reach _ hp

/-- A claim taken (R63). -/
theorem State.claim_reach (c : Claim) (hp : allow .path) : Reach allow s (s.claim c).1 := by
  have hstore : Reach allow s (s.withJctl (s.jctl.take s.tbs.time c).1) :=
    (Event.store s _ (s.jctl.take_step s.tbs.time c)).reach hp
  rw [State.claim_eq]
  exact Reach.ite (fun _ => hstore.trans (State.setAlert_reach _ _ hp)) (fun _ => hstore)

/-- The claims of some claimants, taken one after another (R56). -/
theorem State.takeClaimsOf_reach (p : Claimant → Bool) (hp : allow .path) : Reach allow s (s.takeClaimsOf p) := by
  have hfold (l : List WaitingClaim) (t : State) : Reach allow t (l.foldl (fun t w => (t.claim w.claim).1) t) := by
    induction l generalizing t with
    | nil => exact Reach.refl t
    | cons w l ih => exact (t.claim_reach w.claim hp).trans (ih _)
  exact (s.withClaims_reach _ hp).trans (hfold _ _)

/-- Forwarding from CLAIMING or HOLD, with the stall timer stopped. -/
theorem State.forward_reach (r : Request) (entry : BitVec 4) (captured : Bool) {p : Path} (hg : s.path.Grows p)
    (htracking : p.tracking = s.path.tracking) (hissued : p.issued = s.path.issued)
    (hheld : p.held = s.path.held) (htimer : s.path.Sound → p.stallTimer = none)
    (hs : ∃ q a body, s.path.state = .claiming q a body ∨ s.path.state = .hold q a body) (hp : allow .path) :
    Reach allow s ((s.withPath p).forward r (.forwarded entry captured)) := by
  refine State.PathMoves.reach ((s.pathMoves_withPath hg).trans (State.pathMoves_state ..)) (fun hsound => ?_) hp
  obtain ⟨hfits, hports, -⟩ := s.path.sound_iff.1 hsound
  obtain ⟨q, a, body, hs⟩ := hs
  refine (Path.sound_iff _).2 ⟨hfits.forwarded (cls := .forwarded entry captured) (r := r) (hfits.room q a body hs) ?_ nofun nofun
    rfl (htimer hsound) (by simp [htracking]) (by simp [hissued]), ?_, nofun⟩
  · rintro _ _ he
    obtain hs | hs := hs <;> rw [hs] at he <;> exact absurd he nofun
  · have h := State.portsSound_issued hports .idle _ r (itemOf_awaitsMemory (.forwarded entry captured) r nofun)
    simpa only [State.portsSound, State.forward_eq, State.withPath_fields, htracking, hissued, hheld] using h

/-- The answer to the claim for the request in hand (R33). -/
theorem State.answerClaim_reach (hp : allow .path) : Reach allow s s.answerClaim := by
  by_cases hs : ∃ r a body, s.path.state = .claiming r a body
  case neg =>
    rw [State.answerClaim_none s fun r a body h => hs ⟨r, a, body, h⟩]
    exact Reach.refl s
  obtain ⟨r, a, body, hs⟩ := hs
  have heq : s.answerClaim = s.claimThenForward r a body := by simp only [State.answerClaim, hs]
  have hpath : (s.claim (claimOf a body)).1.path = s.path := (s.claim_fields _).1
  have hclaiming : ∃ q b c, (s.claim (claimOf a body)).1.path.state = .claiming q b c ∨
      (s.claim (claimOf a body)).1.path.state = .hold q b c := ⟨r, a, body, .inl (by rw [hpath, hs])⟩
  have hstopped : (s.claim (claimOf a body)).1.path.Sound → (s.claim (claimOf a body)).1.path.stallTimer = none := by
    rw [hpath]
    intro hsound
    by_contra hrun
    obtain ⟨_, _, _, hhold⟩ := (s.path.sound_iff.1 hsound).1.timer.1 hrun
    rw [hs] at hhold
    exact absurd hhold nofun
  have hforward (captured : Bool) :
      Reach allow s ((s.claim (claimOf a body)).1.forward r (.forwarded a.entry captured)) :=
    (s.claim_reach _ hp).trans (State.forward_reach _ r a.entry captured (Path.Grows.refl _) rfl rfl rfl hstopped
      hclaiming hp)
  rw [heq]
  obtain ⟨-, h⟩ | ⟨-, -, h⟩ | ⟨-, -, h⟩ := State.claimThenForward_cases r a body s <;> rw [h]
  · exact hforward true
  · exact hforward false
  · refine (s.claim_reach _ hp).trans (State.PathMoves.reach (State.pathMoves_withPath _ ?_) (fun hsound => ?_) hp)
    · rw [hpath]
      exact ⟨rfl, BitVec.le_refl _, BitVec.le_refl _, BitVec.le_refl _, BitVec.le_refl _⟩
    · rw [hpath] at hsound
      obtain ⟨hfits, hports, -⟩ := s.path.sound_iff.1 hsound
      exact (Path.sound_iff _).2 ⟨⟨hfits.places, hfits.order, hfits.issued, fun _ => hfits.plain (by rw [hs]; exact nofun), nofun,
        fun _ _ _ _ => hfits.room r a body (.inl hs), by simp⟩, hports, nofun⟩

/-- The claims of the path controller for its requests (R56). -/
theorem State.takePathClaims_reach (hp : allow .path) : Reach allow s s.takePathClaims :=
  (s.takeClaimsOf_reach _ hp).trans (State.answerClaim_reach _ hp)

/-- The path controller makes ready to answer. -/
theorem State.settlePath_reach (hp : allow .path) : Reach allow s s.settlePath := by
  unfold State.settlePath
  cases s.path.state
  case claiming => exact s.takePathClaims_reach hp
  all_goals exact Reach.refl s

/-- With the ports sound before a request is forwarded, evaluating the head changes nothing. -/
theorem State.evaluateHead_reach (hp : allow .path) : Reach allow s s.evaluateHead := by
  refine State.PathMoves.reach (State.pathMoves_takeResponses _ _) (fun hsound => ?_) hp
  rw [State.evaluateHead_eq_self s (s.path.sound_iff.1 hsound).2.1]
  exact hsound

/-- The claim in HOLD is repeated (R35). -/
theorem State.repeatClaim_reach (hp : allow .path) : Reach allow s s.repeatClaim := by
  by_cases hs : ∃ r a body, s.path.state = .hold r a body
  case neg =>
    rw [State.repeatClaim_other fun r a body h => hs ⟨r, a, body, h⟩]
    exact Reach.refl s
  obtain ⟨r, a, body, hs⟩ := hs
  have hpath : (s.claim (claimOf a body)).1.path = s.path := (s.claim_fields _).1
  simp only [State.repeatClaim, hs]
  refine (s.claim_reach (claimOf a body) hp).trans ?_
  cases (s.claim (claimOf a body)).2 with
  | noSpace => exact Reach.refl _
  | appended =>
    exact (State.forward_reach _ r a.entry true (p := { (s.claim (claimOf a body)).1.path with stallTimer := none }) ⟨rfl,
      BitVec.le_refl _, BitVec.le_refl _, BitVec.le_refl _, BitVec.le_refl _⟩ rfl rfl rfl (fun _ => rfl)
      ⟨r, a, body, .inr (by rw [hpath, hs])⟩ hp).trans (State.evaluateHead_reach _ hp)

/-- The stall timer's expiry (R36). -/
theorem State.stallExpired_reach (hp : allow .path) : Reach allow s s.stallExpired := by
  unfold State.stallExpired
  dsimp only [State.withPath_fields]
  split
  · next r a body hs =>
    have hstore : Reach allow s (s.withJctl s.jctl.countLost) := (Event.store s _ s.jctl.countLost_step).reach hp
    have hlost := (hstore.trans (State.setAlert_reach _ lossFlag hp)).trans (State.setAlert_reach _ stallFlag hp)
    change Reach allow s (State.evaluateHead (((s.lostRecordReport.setAlert stallFlag).withPath
      { s.path with stallTimer := none, stallExpiries := satInc s.path.stallExpiries }).forward r (.forwarded a.entry false)))
    have hforward := State.forward_reach (s.lostRecordReport.setAlert stallFlag) r a.entry false
      (p := { s.path with stallTimer := none, stallExpiries := satInc s.path.stallExpiries })
      ⟨rfl, BitVec.le_refl _, le_satInc _, BitVec.le_refl _, BitVec.le_refl _⟩ rfl rfl rfl (fun _ => rfl)
      ⟨r, a, body, .inr hs⟩ hp
    exact hlost.trans (hforward.trans (State.evaluateHead_reach _ hp))
  · next hs =>
    refine State.PathMoves.reach (s.pathMoves_withPath ⟨rfl, BitVec.le_refl _, BitVec.le_refl _, BitVec.le_refl _, BitVec.le_refl _⟩)
      (fun hsound => ?_) hp
    obtain ⟨hfits, hports, hfull⟩ := s.path.sound_iff.1 hsound
    refine (Path.sound_iff _).2 ⟨⟨hfits.places, hfits.order, hfits.issued, hfits.plain, hfits.reading, hfits.room, ?_⟩, hports, hfull⟩
    simp only [State.withPath_fields, ne_eq, not_true_eq_false, false_iff]
    rintro ⟨r, a, body, he⟩
    exact hs r a body he

end

end Sys2Proof.Machine
end

section
/-! PROOFS. The events of frames in delivery and of the transmitter on the line (sections 4.6, 4.7, 6.2 and chapter 8). -/

namespace Sys2Proof.Machine

/-! ### Frames in delivery -/

/-- The order of the frames is one of their states. -/
theorem statesInOrder_congr {l m : List Frame} (h : l.map (·.state) = m.map (·.state)) (hm : statesInOrder m) :
    statesInOrder l := by
  induction l generalizing m with
  | nil => trivial
  | cons f fs ih =>
    cases m with
    | nil => exact absurd h nofun
    | cons g gs =>
      simp only [List.map_cons, List.cons.injEq] at h
      obtain ⟨hstate, hrest⟩ := h
      have hclosed (hg : ∀ x ∈ gs, x.state = .closed) : ∀ x ∈ fs, x.state = .closed := by
        intro x hx
        have hmem : x.state ∈ gs.map (·.state) := hrest ▸ List.mem_map_of_mem hx
        obtain ⟨y, hy, he⟩ := List.mem_map.1 hmem
        exact he ▸ hg y hy
      simp only [statesInOrder] at hm ⊢
      rw [hstate]
      cases hs : g.state <;> simp only [hs] at hm ⊢
      · exact hclosed hm
      · exact hclosed hm
      · exact ih hrest hm

/-- Frames that are all CLOSED stand in order. -/
theorem statesInOrder_closed {l : List Frame} (h : ∀ f ∈ l, f.state = .closed) : statesInOrder l := by
  cases l with
  | nil => trivial
  | cons f fs =>
    simp only [statesInOrder, h f List.mem_cons_self]
    exact fun g hg => h g (List.mem_cons_of_mem f hg)

/-- The order stays when the oldest frames leave. -/
theorem statesInOrder_drop {l : List Frame} (h : statesInOrder l) (k : Nat) : statesInOrder (l.drop k) := by
  induction l generalizing k with
  | nil => simp [statesInOrder]
  | cons f fs ih =>
    cases k with
    | zero => exact h
    | succ k =>
      rw [List.drop_succ_cons]
      simp only [statesInOrder] at h
      cases hf : f.state <;> simp only [hf] at h
      · exact statesInOrder_closed fun g hg => h g (List.mem_of_mem_drop hg)
      · exact statesInOrder_closed fun g hg => h g (List.mem_of_mem_drop hg)
      · exact ih h k

/-- A journal whose frames keep their contents, or lose some from the oldest end, stays sound if they stand in order and only
the oldest has a retry count. -/
theorem Journal.sound_withFrames {j : Journal} (h : j.sound) {l : List Frame}
    (hcontents : l.map Frame.contents <:+ j.frames.map Frame.contents) (horder : statesInOrder l)
    (hretry : ∀ f ∈ l, f.retryCount ≤ 15) (honly : ∀ f ∈ l.drop 1, f.retryCount = 0) :
    ({ j with frames := l } : Journal).sound ∧ ({ j with frames := l } : Journal).onlyOldestRetried := by
  obtain ⟨hheld, hused, hseqs, -, hframes, hopen, hidle⟩ := h
  refine ⟨⟨?_, ?_, ?_, horder, ?_, hopen, hidle⟩, honly⟩
  · have hlength := hcontents.length_le
    simp only [List.length_map] at hlength
    simp only [Journal.framesHeld] at hheld ⊢
    omega
  · have hsum : (l.map fun f => bytesOf f.records).sum ≤ (j.frames.map fun f => bytesOf f.records).sum := by
      have hbytes (m : List Frame) : m.map (fun f => bytesOf f.records) =
          (m.map Frame.contents).map fun c => bytesOf c.2.2.1 := by
        rw [List.map_map]
        rfl
      obtain ⟨front, hfront⟩ := hcontents
      rw [hbytes, hbytes, ← hfront, List.map_append, List.sum_append]
      omega
    simp only [Journal.storeUsed] at hused ⊢
    omega
  · refine runsUpTo_of_suffix hseqs ?_
    have hmap (m : List Frame) : m.map (·.seq) = (m.map Frame.contents).map (·.1) := by
      rw [List.map_map]
      rfl
    simp only [Journal.heldSeqs, hmap]
    obtain ⟨front, hfront⟩ := hcontents
    refine ⟨front.map (·.1), ?_⟩
    rw [← hfront, List.map_append, List.append_assoc]
  · intro f hf
    have hmem : f.contents ∈ j.frames.map Frame.contents := hcontents.subset (List.mem_map_of_mem hf)
    obtain ⟨g, hg, he⟩ := List.mem_map.1 hmem
    obtain ⟨hrecords, hbytes, -⟩ := hframes g hg
    have hsame : g.records = f.records := congrArg (fun c => c.2.2.1) he
    exact ⟨hsame ▸ hrecords, hsame ▸ hbytes, hretry f hf⟩

/-- No frame that is out is SENT when none is out. -/
theorem Journal.framesSent_le (j : Journal) : j.framesSent ≤ j.framesOut :=
  List.countP_mono_left fun f _ h => by simp_all

/-! ### Delivery steps -/

section
variable {j k l : Journal} {d e g : Delivery}

/-- Nothing changes. -/
theorem DeliveryStep.refl (j : Journal) (d : Delivery) : DeliveryStep j d j d :=
  ⟨rfl, List.suffix_rfl, fun h h' => ⟨h, h'⟩, ⟨rfl, rfl, rfl⟩, BitVec.le_refl _, Nat.le_refl _, fun h => h, fun _ h h' => ⟨h, h'⟩⟩

/-- One step after another. -/
theorem DeliveryStep.trans (h : DeliveryStep j d k e) (h' : DeliveryStep k e l g) : DeliveryStep j d l g := by
  refine ⟨?_, h'.contents.trans h.contents, fun hj hr => ?_, ?_, BitVec.le_trans h.range h'.range,
    Nat.le_trans h'.out h.out, fun ht => h'.timer (h.timer ht), fun ho hd ht => ?_⟩
  · have hl : l = { k with frames := l.frames } := congrArg (fun x : Journal => { x with frames := l.frames }) h'.rest
    rw [hl]
    exact h.rest
  · obtain ⟨hk, hr⟩ := h.sound hj hr
    exact h'.sound hk hr
  · obtain ⟨hw, ht, hr⟩ := h.params
    obtain ⟨hw', ht', hr'⟩ := h'.params
    exact ⟨hw'.trans hw, ht'.trans ht, hr'.trans hr⟩
  · obtain ⟨hd, ht⟩ := h.quiet ho hd ht
    exact h'.quiet (Nat.le_zero.1 (ho ▸ h.out)) hd ht

/-- The frames alone change, and no fewer are SENT than before. -/
theorem DeliveryStep.ofFrames (d : Delivery) {frames : List Frame}
    (hcontents : frames.map Frame.contents <:+ j.frames.map Frame.contents)
    (horder : statesInOrder j.frames → statesInOrder frames)
    (hretry : (∀ f ∈ j.frames, f.retryCount ≤ 15) → ∀ f ∈ frames, f.retryCount ≤ 15)
    (honly : j.onlyOldestRetried → ∀ f ∈ frames.drop 1, f.retryCount = 0)
    (hout : ({ j with frames := frames } : Journal).framesOut ≤ j.framesOut)
    (hsent : d.ackTimer = none ∨ j.framesSent ≤ ({ j with frames := frames } : Journal).framesSent) :
    DeliveryStep j d { j with frames := frames } d := by
  refine ⟨rfl, hcontents, fun hj hr => ?_, ⟨rfl, rfl, rfl⟩, BitVec.le_refl _, hout, fun ht hn => ?_, fun _ h h' => ⟨h, h'⟩⟩
  · obtain ⟨-, -, -, hstates, hframes, -, -⟩ := id hj
    exact Journal.sound_withFrames hj hcontents (horder hstates) (hretry fun f hf => (hframes f hf).2.2) (honly hr)
  · have hle := hsent.resolve_left hn
    have hne := ht hn
    omega

/-- Every frame is changed without its contents and its retry count. -/
theorem DeliveryStep.ofMap (d : Delivery) (m : Frame → Frame) (hcontents : ∀ f, (m f).contents = f.contents)
    (hretry : ∀ f, (m f).retryCount = f.retryCount)
    (horder : statesInOrder j.frames → statesInOrder (j.frames.map m))
    (hout : ({ j with frames := j.frames.map m } : Journal).framesOut ≤ j.framesOut)
    (hsent : d.ackTimer = none ∨ j.framesSent ≤ ({ j with frames := j.frames.map m } : Journal).framesSent) :
    DeliveryStep j d { j with frames := j.frames.map m } d := by
  refine DeliveryStep.ofFrames d ?_ horder (fun h f hf => ?_) (fun h f hf => ?_) hout hsent
  · rw [List.map_map, show Frame.contents ∘ m = Frame.contents from funext hcontents]
  · obtain ⟨g, hg, rfl⟩ := List.mem_map.1 hf
    rw [hretry]
    exact h g hg
  · rw [← List.map_drop] at hf
    obtain ⟨g, hg, rfl⟩ := List.mem_map.1 hf
    rw [hretry]
    exact h g hg

/-- The delivery controller's own registers change, but its parameters. -/
theorem DeliveryStep.own (j : Journal) (d : Delivery) (timer : Timer) (range : BitVec 16) (hr : d.range ≤ range)
    (ht : timer = d.ackTimer ∨ timer = none ∨ j.framesSent ≠ 0) :
    DeliveryStep j d j { d with ackTimer := timer, range := range } := by
  refine ⟨rfl, List.suffix_rfl, fun h h' => ⟨h, h'⟩, ⟨rfl, rfl, rfl⟩, hr, Nat.le_refl _, fun h hn => ?_,
    fun ho hopen hd => ⟨hopen, ?_⟩⟩
  · obtain ht | ht | ht := ht
    · exact h (ht ▸ hn)
    · exact absurd ht hn
    · exact ht
  · obtain ht | ht | ht := ht
    · exact ht.trans hd
    · exact ht
    · have := j.framesSent_le
      omega

/-- The return to CLOSED, with the acknowledgment timer stopped (R77). -/
theorem DeliveryStep.returned (j : Journal) (d : Delivery) :
    DeliveryStep j d j.returnToClosed { d with ackTimer := none } := by
  refine (DeliveryStep.own j d none d.range (BitVec.le_refl _) (.inr (.inl rfl))).trans
    (DeliveryStep.ofMap _ returnedFrame (fun _ => rfl) (fun _ => rfl) (fun _ => ?_) ?_ (.inl rfl))
  · refine statesInOrder_closed fun f hf => ?_
    obtain ⟨g, -, rfl⟩ := List.mem_map.1 hf
    rfl
  · exact Nat.le_trans (Nat.le_of_eq j.returnToClosed_framesOut.1) (Nat.zero_le _)

/-- The removal of the oldest frames, with the acknowledgment timer stopped before it (R79). -/
theorem DeliveryStep.removed (j : Journal) (n : Nat) (h : d.ackTimer = none) :
    DeliveryStep j d { j with frames := j.frames.drop n } d := by
  refine DeliveryStep.ofFrames d ?_ (fun h => statesInOrder_drop h n) (fun h f hf => h f (List.mem_of_mem_drop hf))
    (fun h f hf => ?_) ?_ (.inl h)
  · rw [List.map_drop]
    exact List.drop_suffix _ _
  · rw [List.drop_drop, Nat.add_comm, ← List.drop_drop] at hf
    exact h f (List.mem_of_mem_drop hf)
  · exact (List.drop_sublist n j.frames).countP_le

/-- The SENDING frame becomes SENT (R76). -/
theorem DeliveryStep.sentEnd (j : Journal) (d : Delivery) :
    DeliveryStep j d { j with frames := j.frames.map sentFrame } d := by
  have hcount (f : Frame) : (sentFrame f).contents = f.contents ∧ (sentFrame f).retryCount = f.retryCount ∧
      ((sentFrame f).state ≠ .closed ↔ f.state ≠ .closed) ∧ (f.state = .sent → (sentFrame f).state = .sent) := by
    unfold sentFrame
    cases hf : f.state <;> simp [Frame.contents, hf]
  refine DeliveryStep.ofMap d sentFrame (fun f => (hcount f).1) (fun f => (hcount f).2.1) (fun h => ?_) ?_ (.inr ?_)
  · generalize j.frames = fs at h
    induction fs with
    | nil => trivial
    | cons f fs ih =>
      simp only [statesInOrder, List.map_cons] at h ⊢
      have hclosed (hc : ∀ g ∈ fs, g.state = .closed) : ∀ g ∈ fs.map sentFrame, g.state = .closed := by
        intro g hg
        obtain ⟨x, hx, rfl⟩ := List.mem_map.1 hg
        simp only [sentFrame, hc x hx]
      cases hf : f.state <;> simp only [hf, sentFrame] at h ⊢
      · exact hclosed h
      · exact statesInOrder_closed (hclosed h)
      · exact ih h
  · refine Nat.le_of_eq ?_
    simp only [Journal.framesOut, List.countP_map]
    exact List.countP_congr fun f _ => by simpa using (hcount f).2.2.1
  · simp only [Journal.framesSent, List.countP_map]
    exact List.countP_mono_left fun f _ h => by simpa using (hcount f).2.2.2 (by simpa using h)

/-- The oldest frame's retry count is raised (R78). -/
theorem DeliveryStep.retried (j : Journal) (d : Delivery) : DeliveryStep j d j.retryIncrement.1 d := by
  cases hframes : j.frames with
  | nil => rw [Journal.retryIncrement_none (by simp [hframes])]; exact DeliveryStep.refl j d
  | cons f fs =>
    by_cases hs : f.state = .sent
    case neg => rw [Journal.retryIncrement_none (by simpa [hframes] using hs)]; exact DeliveryStep.refl j d
    by_cases hc : f.retryCount < 15
    case neg => rw [Journal.retryIncrement_spent hframes hs hc]; exact DeliveryStep.refl j d
    rw [Journal.retryIncrement_raised hframes hs hc]
    refine DeliveryStep.ofFrames d ?_ (fun h => ?_) (fun h g hg => ?_) (fun h g hg => ?_) ?_ (.inr ?_)
    · rw [hframes]; exact List.suffix_rfl
    · exact statesInOrder_congr (by rw [hframes]; rfl) h
    · obtain rfl | hg := List.mem_cons.1 hg
      · exact hc
      · exact h g (hframes ▸ List.mem_cons_of_mem f hg)
    · exact h g (by rw [hframes]; exact hg)
    · simp [Journal.framesOut, hframes, List.countP_cons]
    · simp [Journal.framesSent, hframes, List.countP_cons]

end

/-! ### The line -/

section
variable {x y z : LinkTransmitter}

/-- Nothing changes. -/
theorem LineStep.refl (x : LinkTransmitter) : LineStep x x := ⟨id, rfl, id, id, BitVec.le_refl _⟩

/-- One step after another. -/
theorem LineStep.trans (h : LineStep x y) (h' : LineStep y z) : LineStep x z :=
  ⟨fun hx => h'.line (h.line hx), h'.clock.trans h.clock, fun hz => h.due (h'.due hz), fun hz => h.hello (h'.hello hz),
    BitVec.le_trans h.count h'.count⟩

/-- The body in progress, what has been sent of it and the abort change, to something sound. -/
theorem LineStep.ofLine (x : LinkTransmitter) (body : Option TxBody) (sent : Nat) (escape : Bool) (check : BitVec 16)
    (abort : List Byte) (hsound : (State.reset.withLtx x).lineSound → (State.reset.withLtx { x with
      body := body, bytesSent := sent, escapeSent := escape, check := check, abortBytes := abort }).lineSound) :
    LineStep x { x with body := body, bytesSent := sent, escapeSent := escape, check := check, abortBytes := abort } :=
  ⟨hsound, rfl, id, id, BitVec.le_refl _⟩

/-- A byte is put. -/
theorem LineStep.put (x : LinkTransmitter) (b : Byte) : LineStep x (x.put b) := ⟨id, rfl, nofun, id, BitVec.le_refl _⟩

/-- Fill, or nothing. -/
theorem LineStep.fill (x : LinkTransmitter) : LineStep x x.fill := by
  unfold LinkTransmitter.fill
  split
  · exact LineStep.put x _
  · exact LineStep.refl x

/-- The abort of a body in progress. -/
theorem LineStep.abortBody (x : LinkTransmitter) : LineStep x x.abortBody := by
  unfold LinkTransmitter.abortBody
  split
  · exact LineStep.refl x
  · exact LineStep.ofLine x none 0 false 0xFFFF _ fun _ => ⟨rfl, rfl, rfl⟩

/-- The abort of a JOURNAL body. -/
theorem LineStep.abortJournal (seq : Seq) (x : LinkTransmitter) : LineStep x (x.abortJournal seq) := by
  obtain h | h := x.abortJournal_cases seq <;> rw [h]
  · exact LineStep.refl x
  · exact LineStep.abortBody x

/-- The start of a body at a frame boundary. -/
theorem LineStep.start (kind : TxKind) (bytes : List Byte) (h : x.abortBytes = []) : LineStep x (x.start kind bytes) :=
  LineStep.ofLine x (some ⟨kind, bytes⟩) 0 false 0xFFFF x.abortBytes fun _ => ⟨Nat.zero_le _, h⟩

/-- The end of a body. -/
theorem LineStep.closeBody (x : LinkTransmitter) : LineStep x x.closeBody :=
  (LineStep.ofLine x none 0 false 0xFFFF x.abortBytes fun _ => ⟨rfl, rfl, rfl⟩).trans (LineStep.put _ _)

/-- A byte of an abort. -/
theorem LineStep.abortByte {b : Byte} {rest : List Byte} (h : x.abortBytes = b :: rest) :
    LineStep x ({ x with abortBytes := rest }.put b) := by
  refine (LineStep.ofLine x x.body x.bytesSent x.escapeSent x.check rest fun hs => ?_).trans (LineStep.put _ _)
  simp only [State.lineSound, State.withLtx_fields] at hs ⊢
  cases hb : x.body with
  | none => simpa only [hb] using hs
  | some body =>
    simp only [hb, h] at hs
    exact absurd hs.2 nofun

/-- The next byte of a body. -/
theorem LineStep.sendBodyByte (x : LinkTransmitter) : LineStep x x.sendBodyByte := by
  unfold LinkTransmitter.sendBodyByte
  cases hb : x.body with
  | none => exact LineStep.refl x
  | some b =>
    dsimp only [Option.bind_some]
    cases hn : x.nextBodyByte b with
    | none => exact LineStep.refl x
    | some found =>
      obtain ⟨v, inCheck⟩ := found
      have hlength : x.bytesSent + 1 ≤ b.bytes.length + 2 := by
        have hnot : ¬ x.allSent = true := by simp [LinkTransmitter.allSent, hb, hn]
        rw [LinkTransmitter.allSent_iff hb] at hnot
        omega
      have hcount : LineStep x (x.countByte v inCheck) := by
        refine LineStep.ofLine x x.body (x.bytesSent + 1) false _ x.abortBytes fun hs => ?_
        simp only [State.lineSound, State.withLtx_fields, hb] at hs ⊢
        exact ⟨hlength, hs.2⟩
      have hescape : LineStep x { x with body := some b, escapeSent := true } := by
        refine LineStep.ofLine x (some b) x.bytesSent true x.check x.abortBytes fun hs => ?_
        simpa only [State.lineSound, State.withLtx_fields, hb] using hs
      dsimp only
      split
      · exact hcount.trans (LineStep.put _ _)
      · split
        · exact hescape.trans (LineStep.put _ _)
        · exact hcount.trans (LineStep.put _ _)

end

end Sys2Proof.Machine
end

section
/-! PROOFS. The events of the link: delivery, the line, and the changes of the link state at each block (chapters 6, 7 and 8). -/

namespace Sys2Proof.Machine

/-! ### Delivery -/

/-- Frames in delivery move on, with the transmitter's body and the space-freed reports. -/
def State.Delivers (s t : State) : Prop :=
  ∃ (j : Journal) (d : Delivery) (x : LinkTransmitter) (freed : Nat), DeliveryStep s.jctl s.dlv j d ∧ LineStep s.ltx x ∧
    t = { s with jctl := j, dlv := d, ltx := x, wires := { s.wires with spaceFreed := freed } }

section
variable {allow : EventKind → Prop} {s t u : State}

/-- Nothing moves. -/
theorem State.Delivers.refl (s : State) : s.Delivers s :=
  ⟨s.jctl, s.dlv, s.ltx, s.wires.spaceFreed, DeliveryStep.refl _ _, LineStep.refl _, rfl⟩

/-- One move after another. -/
theorem State.Delivers.trans (h : s.Delivers t) (h' : t.Delivers u) : s.Delivers u := by
  obtain ⟨j, d, x, freed, hd, hx, rfl⟩ := h
  obtain ⟨j', d', x', freed', hd', hx', rfl⟩ := h'
  exact ⟨j', d', x', freed', hd.trans hd', hx.trans hx', rfl⟩

/-- The frames and the delivery controller's registers alone. -/
theorem State.Delivers.ofStep {j : Journal} {d : Delivery} (s : State) (h : DeliveryStep s.jctl s.dlv j d) :
    s.Delivers { s with jctl := j, dlv := d } :=
  ⟨j, d, s.ltx, s.wires.spaceFreed, h, LineStep.refl _, rfl⟩

/-- What delivery does is made of events. -/
theorem State.Delivers.reach (h : s.Delivers t) (hl : allow .link) : Reach allow s t := by
  obtain ⟨j, d, x, freed, hd, hx, rfl⟩ := h
  have hreports := (Event.reports s s.wires.sendEnd s.wires.sendReport freed s.wires.retryReports).reach (allow := allow) hl
  have hline := (Event.line (s.withWires { s.wires with spaceFreed := freed }) x hx).reach (allow := allow) hl
  have hdelivery := (Event.delivery ((s.withWires { s.wires with spaceFreed := freed }).withLtx x) j d hd).reach (allow := allow) hl
  exact (hreports.trans hline).trans hdelivery

/-- A number out of range is counted. -/
theorem State.delivers_countRange (s : State) : s.Delivers s.countRange :=
  State.Delivers.ofStep s (DeliveryStep.own s.jctl s.dlv s.dlv.ackTimer _ (le_satInc _) (.inl rfl))

/-- Taking back in words of the fields, with what becomes of the transmitter's body. -/
theorem State.takeBack_line (s : State) : ∃ x, LineStep s.ltx x ∧ s.takeBack = { s with
    ltx := x, jctl := s.jctl.returnToClosed, dlv := { s.dlv with ackTimer := none } } := by
  rw [State.takeBack_eq]
  refine ⟨_, ?_, rfl⟩
  cases s.jctl.sendingSeq with
  | none => exact LineStep.refl _
  | some seq => exact LineStep.abortJournal seq _

/-- Everything out is taken back. -/
theorem State.delivers_takeBack (s : State) : s.Delivers s.takeBack := by
  obtain ⟨x, hx, h⟩ := s.takeBack_line
  exact ⟨_, _, x, s.wires.spaceFreed, DeliveryStep.returned s.jctl s.dlv, hx, h⟩

/-- Frames are removed and everything out is taken back. -/
theorem State.delivers_removeAndTakeBack (n : Seq) (s : State) : s.Delivers (s.removeAndTakeBack n) := by
  have hframes : ({ s.jctl with frames := s.jctl.frames.drop (s.jctl.named n) } : Journal).returnToClosed =
      { s.jctl.returnToClosed with frames := s.jctl.returnToClosed.frames.drop (s.jctl.named n) } := by
    simp only [Journal.returnToClosed, List.map_drop]
  obtain ⟨x, hx, h⟩ := (s.removeBefore n).takeBack_line
  have hstep := (DeliveryStep.returned s.jctl s.dlv).trans (DeliveryStep.removed _ (s.jctl.named n) rfl)
  rw [← hframes] at hstep
  rw [State.removeBefore_eq] at hx h
  rw [State.removeAndTakeBack, State.removeBefore_eq, h]
  exact ⟨_, _, x, _, hstep, hx, rfl⟩

/-- The number of an ACK. -/
theorem State.delivers_takeAckNumber (n : Seq) (s : State) : s.Delivers (s.takeAckNumber n) := by
  unfold State.takeAckNumber
  split
  · split
    · exact State.Delivers.refl s
    · rw [State.removeBefore_eq]
      refine ⟨_, _, s.ltx, _, ((DeliveryStep.own s.jctl s.dlv none s.dlv.range (BitVec.le_refl _) (.inr (.inl rfl))).trans
        (DeliveryStep.removed _ (s.jctl.named n) rfl)).trans (DeliveryStep.own _ _ (if ({ s.jctl with
          frames := s.jctl.frames.drop (s.jctl.named n) } : Journal).framesSent = 0 then none else some s.dlv.ackTimeout)
          s.dlv.range (BitVec.le_refl _) ?_), LineStep.refl _, rfl⟩
      split
      · exact .inl rfl
      · next h => exact .inr (.inr h)
  · exact s.delivers_countRange

/-- The number of a NAK. -/
theorem State.delivers_takeNakNumber (n : Seq) (s : State) : s.Delivers (s.takeNakNumber n) := by
  unfold State.takeNakNumber
  split
  · exact s.delivers_removeAndTakeBack n
  · exact s.delivers_countRange

/-- The number of a recorder HELLO. -/
theorem State.delivers_takeHelloNumber (e : Seq) (s : State) : s.Delivers (s.takeHelloNumber e) := by
  unfold State.takeHelloNumber
  split
  · exact s.delivers_removeAndTakeBack e
  · exact s.delivers_takeBack.trans (State.delivers_countRange _)

end

section
variable {allow : EventKind → Prop} (s : State) (hl : allow .link)
include hl

/-- The transmitter on the line. -/
theorem State.line_reach {x : LinkTransmitter} (h : LineStep s.ltx x) : Reach allow s (s.withLtx x) :=
  (Event.line s x h).reach hl

/-- Choices drawn. -/
theorem State.drawn_reach {n : Nat} (h : s.choices ≤ n) : Reach allow s (s.withChoices n) := (Event.drawn s n h).reach hl

/-- The delivery controller takes the entry to UP (R145). -/
theorem State.takeUp_reach : Reach allow s s.takeUp := by
  cases hup : s.wires.upHello with
  | none => rw [State.takeUp_none s hup]; exact Reach.refl s
  | some e =>
    obtain ⟨j, d, x, freed, hd, hx, heq⟩ := (s.withWires { s.wires with upHello := none }).delivers_takeHelloNumber e
    simp only [State.takeUp, hup]
    rw [heq]
    exact (Event.upTaken s j d x freed (by simp [hup]) hd hx).reach hl

/-- A send end (R76). -/
theorem State.takeSendEnd_reach : Reach allow s s.takeSendEnd := by
  rw [State.takeSendEnd_eq]
  refine Reach.trans (t := { s with jctl := if s.wires.sendEnd && s.jctl.sendingSeq.isSome then
      { s.jctl with frames := s.jctl.frames.map sentFrame } else s.jctl }) ((Event.delivery s _ s.dlv ?_).reach hl)
    ((Event.reports _ _ _ s.wires.spaceFreed s.wires.retryReports).reach hl)
  split
  · exact DeliveryStep.sentEnd s.jctl s.dlv
  · exact DeliveryStep.refl s.jctl s.dlv

/-- A send-end report (R136). -/
theorem State.takeSendReport_reach : Reach allow s s.takeSendReport := by
  rw [State.takeSendReport_eq]
  refine Reach.trans (t := { s with dlv := if s.wires.sendReport && s.dlv.ackTimer.isNone && decide (s.jctl.framesSent ≠ 0)
      then { s.dlv with ackTimer := some s.dlv.ackTimeout } else s.dlv }) ((Event.delivery s s.jctl _ ?_).reach hl)
    ((Event.reports _ s.wires.sendEnd _ s.wires.spaceFreed s.wires.retryReports).reach hl)
  split
  · next h =>
    simp only [Bool.and_eq_true, decide_eq_true_eq] at h
    exact DeliveryStep.own s.jctl s.dlv _ s.dlv.range (BitVec.le_refl _) (.inr (.inr h.2))
  · exact DeliveryStep.refl s.jctl s.dlv

/-- A send end and its report. -/
theorem State.finishSendEnd_reach : Reach allow s s.finishSendEnd :=
  (s.takeSendEnd_reach hl).trans (State.takeSendReport_reach _ hl)

/-- The acknowledgment timer's expiry (R142). -/
theorem State.ackExpired_reach : Reach allow s s.ackExpired := by
  have hraised : Reach allow s ((s.withDlv { s.dlv with ackTimer := none }).withJctl s.jctl.retryIncrement.1) :=
    (Event.delivery s _ _ ((DeliveryStep.own s.jctl s.dlv none s.dlv.range (BitVec.le_refl _) (.inr (.inl rfl))).trans
      (DeliveryStep.retried _ _))).reach hl
  refine hraised.trans (Reach.ite (fun _ => Reach.refl _) fun _ => Reach.ite (fun _ => (State.delivers_takeBack _).reach hl) fun _ => ?_)
  exact (Event.reports _ s.wires.sendEnd s.wires.sendReport s.wires.spaceFreed (s.wires.retryReports + 1)).reach hl

/-! ### The entry to DOWN at each block -/

omit hl in
/-- The entry to UP draws no choice. -/
theorem State.takeUp_choices : s.takeUp.choices = s.choices :=
  congrArg Beside.choices (State.ownBeside_comm (fun x s => State.takeUp_beside x s) s)

omit hl in
/-- The parts of the blocks draw no choice. -/
theorem State.takeDownBy_choices (of : Config.LinkBlock → Bool) : (s.takeDownBy of).choices = s.choices := by
  refine State.takeDownBy_keeps (fun u => u.choices = s.choices) of (fun u h => ?_) (fun u h => ?_) (fun u h => ?_)
    (fun u h => ?_) (fun u h => ?_) s rfl
  · rw [State.ltxTakesDown_eq]; exact h
  · obtain ⟨-, -, -, -, -, -, -, -, -, -, -, hchoices, -, -⟩ := u.dlvTakesDown_fields
    exact hchoices.trans h
  · rw [State.lrxTakesDown_eq]; exact h
  · rw [State.cmdTakesDown_eq]; exact h
  · rw [State.alrTakesDown_eq]; exact h

/-- The link receiver's part. -/
theorem State.lrxTakesDown_reach : Reach allow s s.lrxTakesDown :=
  Reach.ite (fun h => (Event.lrxDown s h).reach hl) fun _ => Reach.refl s

/-- The link transmitter's part. -/
theorem State.ltxTakesDown_reach : Reach allow s s.ltxTakesDown := by
  refine Reach.ite (fun h => (Event.ltxDown s _ h ((LineStep.abortBody s.ltx).trans ?_) rfl).reach hl) fun _ => Reach.refl s
  exact ⟨id, rfl, id, nofun, BitVec.le_refl _⟩

/-- The delivery controller's part, behind the transmitter's and a send end. -/
theorem State.dlvTakesDown_reach : Reach allow s s.dlvTakesDown := by
  cases h : s.wires.falling.dlv with
  | false => rw [State.dlvTakesDown_none s h]; exact Reach.refl s
  | true =>
    rw [State.dlvTakesDown_eq s h]
    have hwires : s.ltxTakesDown.finishSendEnd.wires.falling = { s.wires.falling with ltx := false } := by
      simp [State.finishSendEnd_fields, State.ltxTakesDown_eq]
    exact ((s.ltxTakesDown_reach hl).trans (State.finishSendEnd_reach _ hl)).trans
      ((Event.dlvDown _ (by rw [hwires]; exact h) (by rw [hwires])).reach hl)

/-- The command unit's part. -/
theorem State.cmdTakesDown_reach : Reach allow s s.cmdTakesDown :=
  Reach.ite (fun h => (Event.cmdDown s h).reach hl) fun _ => Reach.refl s

/-- The alert unit's part. -/
theorem State.alrTakesDown_reach : Reach allow s s.alrTakesDown :=
  Reach.ite (fun h => ((Event.linkAlert s linkFlag).reach hl).trans ((Event.alrDown (s.setAlert linkFlag) h).reach hl))
    fun _ => Reach.refl s

/-- The parts of some blocks. -/
theorem State.takeDownBy_reach (of : Config.LinkBlock → Bool) : Reach allow s (s.takeDownBy of) :=
  State.takeDownBy_keeps (Reach allow s) of (fun u h => h.trans (u.ltxTakesDown_reach hl))
    (fun u h => h.trans (u.dlvTakesDown_reach hl)) (fun u h => h.trans (u.lrxTakesDown_reach hl))
    (fun u h => h.trans (u.cmdTakesDown_reach hl)) (fun u h => h.trans (u.alrTakesDown_reach hl)) s (Reach.refl s)

/-- The change of the link state that waits for the delivery controller. -/
theorem State.dlvTakesLink_reach : Reach allow s s.dlvTakesLink :=
  (s.takeUp_reach hl).trans (State.dlvTakesDown_reach _ hl)

/-- A fall of the link (R127). -/
theorem State.enterDown_reach (h : s.lctl.link ≠ .down) : Reach allow s s.enterDown := by
  have hup : s.takeUp.wires.upHello = none := by rw [s.takeUp_fields.1]
  rw [← State.enterDown_takeUp, State.enterDown_eq hup]
  refine ((s.takeUp_reach hl).trans ((Event.fallen _ (by rw [s.takeUp_fields.2.1]; exact h) hup).reach hl)).trans
    ((State.takeDownBy_reach _ hl _).trans (State.drawn_reach _ hl ?_))
  rw [State.takeDownBy_choices]
  exact Nat.le_succ _

/-! ### The link controller -/

/-- The silence timer started again (R123). -/
theorem State.restartSilence_reach (h : s.lctl.link ≠ .down) : Reach allow s s.restartSilence :=
  (Event.silenceStarted s h).reach hl

/-- A frame-received report (R123). -/
theorem State.takeFrameReport_reach : Reach allow s s.takeFrameReport := by
  have hreport : Reach allow s (s.withWires { s.wires with frameReport := false }) := (Event.reportTaken s).reach hl
  refine Reach.ite (fun _ => hreport.trans ?_) fun _ => Reach.refl s
  unfold State.frameReceived
  cases hlink : (s.withWires { s.wires with frameReport := false }).lctl.link with
  | down => exact Reach.refl _
  | training => exact State.restartSilence_reach _ hl (by rw [hlink]; exact nofun)
  | up => exact State.restartSilence_reach _ hl (by rw [hlink]; exact nofun)

/-- The silence timer's expiry (R123). -/
theorem State.silenceExpired_reach : Reach allow s s.silenceExpired := by
  unfold State.silenceExpired
  cases h : s.lctl.link with
  | down => exact (Event.silenceStopped s h).reach hl
  | training => exact s.enterDown_reach hl (by rw [h]; exact nofun)
  | up => exact s.enterDown_reach hl (by rw [h]; exact nofun)

/-- The hello timer's expiry (R122). -/
theorem State.helloExpired_reach : Reach allow s s.helloExpired := by
  unfold State.helloExpired
  cases h : s.lctl.link with
  | training => exact (Event.helloStarted s h).reach hl
  | down => exact (Event.helloStopped s (by rw [h]; exact nofun)).reach hl
  | up => exact (Event.helloStopped s (by rw [h]; exact nofun)).reach hl

/-- A retry-limit report (R126). -/
theorem State.retryLimitReached_reach : Reach allow s s.retryLimitReached := by
  unfold State.retryLimitReached
  cases h : s.lctl.link with
  | up => exact s.enterDown_reach hl (by rw [h]; exact nofun)
  | training => exact Reach.refl s
  | down => exact Reach.refl s

/-- A recorder HELLO (R124). -/
theorem State.takeHello_reach (e : Seq) (hr : allow .rise ∨ s.lctl.link ≠ .training) : Reach allow s (s.takeHello e) := by
  unfold State.takeHello
  dsimp only
  refine (s.takeFrameReport_reach hl).trans ?_
  rw [← State.takeFrameReport_link s] at hr
  cases h : s.takeFrameReport.lctl.link with
  | down => exact Reach.refl _
  | up =>
    exact (State.restartSilence_reach _ hl (by rw [h]; exact nofun)).trans
      ((State.takeUp_reach _ hl).trans ((State.delivers_takeHelloNumber e _).reach hl))
  | training =>
    have hrise := hr.resolve_right (not_not_intro h)
    refine (State.restartSilence_reach _ hl (by rw [h]; exact nofun)).trans
      (Reach.trans ((Event.risen s.takeFrameReport.restartSilence h).reach hrise) ?_)
    have hgiven := (Event.upGiven s.takeFrameReport.restartSilence.enterUp e rfl).reach (allow := allow) hrise
    refine hgiven.trans (Reach.trans (t := if Config.takesLate s.takeFrameReport.restartSilence.enterUp.choices .dlv then _ else _)
      (Reach.ite (fun _ => Reach.refl _) fun _ => State.takeUp_reach _ hl) (State.drawn_reach _ hl ?_))
    split
    · exact Nat.le_succ _
    · rw [State.takeUp_choices]
      exact Nat.le_succ _

/-! ### The uplink -/

/-- The choice at a frame boundary (R132). -/
theorem State.chooseBody_reach (h : s.ltx.abortBytes = []) : Reach allow s s.chooseBody := by
  have hltx : s.takeSendEnd.ltx = s.ltx := by rw [State.takeSendEnd_eq]
  refine (s.takeSendEnd_reach hl).trans ?_
  unfold State.chooseBody
  rw [← hltx] at h
  generalize s.takeSendEnd = u at h
  have hfill : Reach allow u (u.withLtx u.ltx.fill) := u.line_reach hl (LineStep.fill _)
  dsimp only
  cases hlink : u.lctl.link with
  | down => exact hfill
  | training =>
    refine Reach.ite (fun _ => u.line_reach hl ((LineStep.start .hello
      (helloBody u.jctl.epoch u.jctl.oldestHeld u.jctl.nextSeq u.jctl.framesHeld) h).trans ?_)) fun _ => hfill
    exact ⟨id, rfl, id, nofun, BitVec.le_refl _⟩
  | up =>
    dsimp only [State.arbitrate]
    cases hq : u.cmd.replies with
    | cons r rest => exact ((Event.replyStarted u r rest hq).reach hl).trans (State.line_reach _ hl (LineStep.start _ _ h))
    | nil =>
      dsimp only
      cases hw : u.windowOpen with
      | false => exact hfill
      | true =>
        cases ht : takeOldestClosed u.jctl.frames with
        | none => exact hfill
        | some found =>
          obtain ⟨f, frames⟩ := found
          refine ((Event.sending u f frames hlink hw ht).reach hl).trans (State.line_reach _ hl
            ((LineStep.start (.journal f.seq) (journalBody f u.jctl.epoch) h).trans ?_))
          refine ⟨id, rfl, id, id, ?_⟩
          dsimp only
          split
          · exact le_satInc _
          · exact BitVec.le_refl _

/-- The end of a body (R104). -/
theorem State.endBody_reach : Reach allow s s.endBody := by
  rw [State.endBody_eq]
  exact (s.line_reach hl (LineStep.closeBody _)).trans
    ((Event.reports _ _ s.wires.sendReport s.wires.spaceFreed s.wires.retryReports).reach hl)

/-- A byte of the body in progress, if there is one. -/
theorem State.sendByte_reach : Reach allow s s.sendByte :=
  Reach.ite (fun _ => s.endBody_reach hl) fun _ => s.line_reach hl (LineStep.sendBodyByte _)

/-- A byte time (R103 to R105). -/
theorem State.byteTime_reach : Reach allow s s.byteTime := by
  obtain ⟨b, rest, ha, h⟩ | ⟨ha, -, h⟩ | ⟨-, -, h⟩ := s.byteTime_cases <;> rw [h]
  · exact s.line_reach hl (LineStep.abortByte ha)
  · exact (s.chooseBody_reach hl ha).trans (State.sendByte_reach _ hl)
  · exact s.sendByte_reach hl

end

end Sys2Proof.Machine
end

section
/-! PROOFS. The events of a GET-STATUS in execution, of the entry to TRAINING and of the receiver (sections 6.3, 7.2 and 9.2). -/

namespace Sys2Proof.Machine

/-! ### A GET-STATUS in execution -/

section
variable {allow : EventKind → Prop} (s : State)

/-- Owners answer, and the reply is formed if they were the last. -/
theorem State.letAnswer_reach {r : StatusReading} (hr : s.cmd.reading = some r) (of : Config.StatusOwner → Bool) {n : Nat}
    (hn : s.choices ≤ n) (hs : allow .status) : Reach allow s (((s.letAnswer of r).withChoices n).closeReading) := by
  let now := fun o => of o && (r.answerOf o).isNone
  let q : StatusReading := { r with answers := r.answers ++ (statusOwners.filter now).map fun o => (o, s.answer o) }
  have hstep (u : State) (hu : Reach allow s u) (hur : u.cmd.reading = some r) (huc : u.choices ≤ n) :
      Reach allow s (((u.withCmd { u.cmd with reading := some q }).withChoices n).closeReading) := by
    refine hu.trans ?_
    obtain ⟨hq, h⟩ | ⟨-, h⟩ := State.closeReading_cases ((u.withCmd { u.cmd with reading := some q }).withChoices n) q rfl
    · rw [h]
      exact (Event.readOn u r q n hur rfl (fun _ => hq) (.inl rfl) huc).reach hs
    · rw [h]
      rw [State.giveReply_eq]
      exact (Event.statusReplied u r _ n hur huc).reach hs
  have hlet : s.letAnswer of r = (if r.clear then s.clearCounters now else s).withCmd
      { (if r.clear then s.clearCounters now else s).cmd with reading := some q } := rfl
  rw [hlet]
  cases hc : r.clear with
  | false => exact hstep s (Reach.refl s) hr hn
  | true =>
    refine hstep (s.clearCounters now) ((Event.cleared s r now hr hc).reach hs) ?_ hn
    rw [State.clearCounters_eq]
    dsimp only
    split <;> exact hr

/-- A moment at which owners may answer (R176). -/
theorem State.ownersAnswer_reach (hs : s.cmd.reading ≠ none → allow .status) : Reach allow s s.ownersAnswer := by
  cases hr : s.cmd.reading with
  | none => rw [State.ownersAnswer_none s hr]; exact Reach.refl s
  | some r =>
    simp only [State.ownersAnswer, hr]
    exact s.letAnswer_reach hr _ (Nat.le_succ _) (hs (by rw [hr]; exact nofun))

/-- The completion of a GET-STATUS (R155). -/
theorem State.finishStatus_reach (hs : s.cmd.reading ≠ none → allow .status ∧ allow .path) : Reach allow s s.finishStatus := by
  cases hr : s.cmd.reading with
  | none => rw [State.finishStatus_none s hr]; exact Reach.refl s
  | some r =>
    obtain ⟨hs, hp⟩ := hs (by rw [hr]; exact nofun)
    have hsettled : Reach allow s (if (r.answerOf .path).isNone then s.settlePath else s) :=
      Reach.ite (fun _ => s.settlePath_reach hp) fun _ => Reach.refl s
    have hcmd : (if (r.answerOf .path).isNone then s.settlePath else s).cmd = s.cmd := by
      split
      · obtain ⟨-, -, -, -, -, -, -, -, hcmd, -⟩ := s.settlePath_fields
        exact hcmd
      · rfl
    simp only [State.finishStatus, hr]
    refine hsettled.trans ?_
    generalize (if (r.answerOf .path).isNone then s.settlePath else s) = u at hcmd
    have hchoices : (u.letAnswer (fun _ => true) r).choices = u.choices := by
      obtain ⟨-, -, -, -, -, -, -, -, -, hchoices, -⟩ := u.letAnswer_fields (fun _ => true) r
      exact hchoices
    have hown : u.letAnswer (fun _ => true) r = (u.letAnswer (fun _ => true) r).withChoices u.choices := by
      rw [← hchoices]
      rfl
    rw [hown]
    exact u.letAnswer_reach (by rw [hcmd, hr]) (fun _ => true) (Nat.le_refl _) hs

/-- A CLK period of the execution of a GET-STATUS (R155). -/
theorem State.statusPeriod_reach (hs : allow .status) (hp : allow .path) : Reach allow s s.statusPeriod := by
  cases hr : s.cmd.reading with
  | none => rw [State.statusPeriod_none s hr]; exact Reach.refl s
  | some r =>
    simp only [State.statusPeriod, hr]
    refine Reach.ite (fun h => ?_) fun _ => s.finishStatus_reach fun _ => ⟨hs, hp⟩
    exact ((Event.readOn s r { r with periods := r.periods + 1 } s.choices hr rfl id (.inr h) (Nat.le_refl _)).reach hs).trans
      (State.ownersAnswer_reach _ fun _ => hs)

end

/-! ### The entry to TRAINING -/

/-- What stands when the link is about to enter TRAINING: DOWN, a receiver that counts, no body waiting. -/
structure State.AboutToTrain (s : State) : Prop where
  link     : s.lctl.link = .down
  rx       : s.lrx.rx = .notDecoding
  handedOn : s.wires.handedOn = none

/-- The completion of a GET-STATUS leaves the receiver's decoding alone. -/
theorem State.finishStatus_rx (s : State) : s.finishStatus.lrx.rx = s.lrx.rx := by
  cases hr : s.cmd.reading with
  | none => rw [State.finishStatus_none s hr]
  | some r =>
    rw [State.finishStatus_some s r hr, State.giveReply_eq]
    have hsettle : (if (r.answerOf .path).isNone then s.settlePath else s).lrx = s.lrx := by
      split
      · obtain ⟨-, -, -, -, hlrx, -⟩ := s.settlePath_fields
        exact hlrx
      · rfl
    obtain ⟨-, -, -, -, -, -, -, -, -, -, -, -, -, hlrx, -⟩ :=
      State.letAnswer_fields (fun _ => true) r (if (r.answerOf .path).isNone then s.settlePath else s)
    rw [hsettle] at hlrx
    have hrx := congrArg LinkReceiver.rx hlrx
    exact hrx

section
variable (s : State)

/-- A frame-received report and the end of a GET-STATUS leave it so, and after the latter none is being executed. -/
theorem State.AboutToTrain.settled {s : State} (h : s.AboutToTrain) :
    s.takeFrameReport.finishStatus.AboutToTrain ∧ s.takeFrameReport.finishStatus.cmd.reading = none := by
  obtain ⟨hlink, hrx, hhanded⟩ := h
  obtain ⟨-, -, -, -, hlctl, -, -, -, -, -, hreading⟩ := s.takeFrameReport.finishStatus_fields
  have hown : s.takeFrameReport.finishStatus.wires.handedOn = s.takeFrameReport.wires.handedOn := by
    rw [← State.finishStatus_ownBeside]
    rfl
  refine ⟨⟨by rw [hlctl, State.takeFrameReport_link, hlink], ?_, ?_⟩, hreading⟩
  · rw [State.finishStatus_rx, State.takeFrameReport_eq]
    exact hrx
  · rw [hown, State.takeFrameReport_eq]
    exact hhanded

/-- So do the entries to DOWN. -/
theorem State.AboutToTrain.takeDown {s : State} (h : s.AboutToTrain) (hr : s.cmd.reading = none) :
    s.takeDown.AboutToTrain ∧ s.takeDown.cmd.reading = none := by
  refine State.takeDownBy_keeps (fun u => u.AboutToTrain ∧ u.cmd.reading = none) _ ?_ ?_ ?_ ?_ ?_ s ⟨h, hr⟩
  · rintro u ⟨⟨hlink, hrx, hhanded⟩, hr⟩
    rw [State.ltxTakesDown_eq]
    exact ⟨⟨hlink, hrx, hhanded⟩, hr⟩
  · rintro u ⟨⟨hlink, hrx, hhanded⟩, hr⟩
    obtain ⟨-, -, -, -, -, hlrx, hlctl, hcmd, -⟩ := u.dlvTakesDown_fields
    have hown : u.dlvTakesDown.wires.handedOn = u.wires.handedOn :=
      congrArg Beside.handedOn (State.ownBeside_comm (fun x s => State.dlvTakesDown_beside x s) u)
    exact ⟨⟨by rw [hlctl, hlink], by rw [hlrx, hrx], by rw [hown, hhanded]⟩, by rw [hcmd, hr]⟩
  · rintro u ⟨⟨hlink, hrx, hhanded⟩, hr⟩
    rw [State.lrxTakesDown_eq]
    refine ⟨⟨hlink, ?_, hhanded⟩, hr⟩
    dsimp only
    split
    · rfl
    · exact hrx
  · rintro u ⟨⟨hlink, hrx, hhanded⟩, hr⟩
    rw [State.cmdTakesDown_eq]
    exact ⟨⟨hlink, hrx, hhanded⟩, hr⟩
  · rintro u ⟨⟨hlink, hrx, hhanded⟩, hr⟩
    rw [State.alrTakesDown_eq]
    exact ⟨⟨hlink, hrx, hhanded⟩, hr⟩

/-- The transmitter's part has nothing to do with what stands beside it. -/
theorem State.ltxTakesDown_beside (x : Beside) (u : State) : (u.beside x).ltxTakesDown = u.ltxTakesDown.beside x := by
  rw [State.ltxTakesDown_eq, State.ltxTakesDown_eq]
  rfl

/-- The state with another settle count and another SETTLE-CODE. -/
def State.settling (n code : Nat) : State := s.withLrx { s.lrx with settleCount := n, settleCode := code }

/-- What has nothing to do with what stands beside it goes on with any settle count and code. -/
theorem State.settling_comm {f : State → State} (hf : ∀ x s, f (State.beside x s) = (f s).beside x) (n code : Nat) :
    f (s.settling n code) = (f s).settling n code :=
  calc f (s.settling n code)
    _ = (f s).beside { s.ownBeside with settleCount := n, settleCode := code } :=
      hf { s.ownBeside with settleCount := n, settleCode := code } s
    _ = (f s).beside { (f s).ownBeside with settleCount := n, settleCode := code } := by rw [State.ownBeside_comm hf]
    _ = (f s).settling n code := rfl

/-- The settle count and code are of no account to the entries to DOWN, but that the receiver's sets the count to 0. -/
theorem State.takeDown_settling (n code : Nat) :
    (s.settling n code).takeDown = s.takeDown.settling (if s.wires.falling.lrx then 0 else n) code := by
  have hparts (u : State) (hu : u.wires.falling.lrx = s.wires.falling.lrx) :
      (u.settling n code).lrxTakesDown.cmdTakesDown.alrTakesDown =
        u.lrxTakesDown.cmdTakesDown.alrTakesDown.settling (if s.wires.falling.lrx then 0 else n) code := by
    simp only [State.lrxTakesDown_eq, State.cmdTakesDown_eq, State.alrTakesDown_eq, State.settling, State.withLrx, hu]
    cases s.wires.falling.lrx <;> rfl
  have hdlv : (s.settling n code).ltxTakesDown.dlvTakesDown = s.ltxTakesDown.dlvTakesDown.settling n code := by
    rw [State.settling_comm _ State.ltxTakesDown_beside, State.settling_comm _ State.dlvTakesDown_beside]
  have hfall : s.ltxTakesDown.dlvTakesDown.wires.falling.lrx = s.wires.falling.lrx := by
    cases h : s.ltxTakesDown.wires.falling.dlv with
    | false => rw [State.dlvTakesDown_none _ h, State.ltxTakesDown_eq]
    | true => rw [State.dlvTakesDown_eq _ h]; simp [State.ltxTakesDown_eq, State.finishSendEnd_fields]
  simp only [State.takeDown, State.takeDownBy, if_true, hdlv]
  exact hparts _ hfall

/-- The state after the entry to TRAINING, but for what came before it. -/
def State.intoTraining : State := { s with
  lctl := { s.lctl with
    link := .training, silenceTimer := some s.lctl.silenceLimit, helloTimer := some s.lctl.helloInterval }
  ltx := { s.ltx with helloPending := true }
  lrx := { s.lrx with rx := .between } }

/-- The entry to TRAINING with another settle count and code. -/
theorem State.enterTraining_settling (n code : Nat) :
    let w := s.takeFrameReport.finishStatus
    (s.settling n code).enterTraining =
      (w.takeDown.settling (if w.wires.falling.lrx then 0 else n) code).intoTraining := by
  intro w
  have hreport : (s.settling n code).takeFrameReport = s.takeFrameReport.settling n code := by
    rw [State.takeFrameReport_eq, State.takeFrameReport_eq]
    rfl
  rw [State.enterTraining, hreport, State.settling_comm _ State.finishStatus_beside, State.takeDown_settling]
  rfl

/-- The entry to TRAINING, with the settle count and the code that come with it. -/
theorem State.enterTraining_reach {allow : EventKind → Prop} (hl : allow .link)
    (hs : s.cmd.reading ≠ none → allow .status ∧ allow .path) (h : s.AboutToTrain) (n code : Nat) (hn : n ≤ s.lrx.settleCount + 1)
    (hcode : code = s.lrx.settleCode ∨ allow .setParam ∧ code ≤ 3) : Reach allow s (s.settling n code).enterTraining := by
  obtain ⟨hsettled, hreading⟩ := h.settled
  obtain ⟨⟨hlink, hrx, hhanded⟩, hreading'⟩ := hsettled.takeDown hreading
  rw [State.enterTraining_settling]
  have hreport : s.takeFrameReport.lrx = s.lrx := by rw [State.takeFrameReport_eq]
  have hcmd : s.takeFrameReport.cmd = s.cmd := by rw [State.takeFrameReport_eq]
  have hsame := State.ownBeside_comm State.finishStatus_beside s.takeFrameReport
  have hcount : s.takeFrameReport.finishStatus.lrx.settleCount = s.lrx.settleCount :=
    (congrArg Beside.settleCount hsame).trans (congrArg LinkReceiver.settleCount hreport)
  have hheld : s.takeFrameReport.finishStatus.lrx.settleCode = s.lrx.settleCode :=
    (congrArg Beside.settleCode hsame).trans (congrArg LinkReceiver.settleCode hreport)
  have hbefore := ((s.takeFrameReport_reach hl).trans (State.finishStatus_reach _ (by rw [hcmd]; exact hs))).trans
    (State.takeDownBy_reach _ hl fun _ => true)
  generalize s.takeFrameReport.finishStatus = w at *
  have hown := w.takeDown_settling w.lrx.settleCount w.lrx.settleCode
  have hdown : w.takeDown.lrx.settleCount = (if w.wires.falling.lrx then 0 else w.lrx.settleCount) ∧
      w.takeDown.lrx.settleCode = w.lrx.settleCode :=
    ⟨congrArg (fun u => u.lrx.settleCount) hown, congrArg (fun u => u.lrx.settleCode) hown⟩
  have hle : (if w.wires.falling.lrx then 0 else n) ≤ w.takeDown.lrx.settleCount + 1 := by
    rw [hdown.1, hcount]
    split <;> omega
  refine (hbefore.trans ((Event.trained _ _ hlink (State.takeDown_taken w) hreading' hhanded hrx hle).reach hl)).trans ?_
  obtain rfl | ⟨hset, hcode⟩ := hcode
  · rw [← hheld, ← hdown.2]
    exact Reach.refl _
  · exact (Event.settleCodeSet _ code hcode fun he => absurd (show RxState.between = .notDecoding from he) nofun).reach hset

end

/-! ### The receiver -/

section
variable {x y z : LinkReceiver}

/-- Nothing changes. -/
theorem DiscardCounters.Grows.refl (c : DiscardCounters) : c.Grows c :=
  ⟨BitVec.le_refl _, BitVec.le_refl _, BitVec.le_refl _, BitVec.le_refl _, BitVec.le_refl _, BitVec.le_refl _⟩

/-- A discard counted. -/
theorem DiscardCounters.Grows.count (c : DiscardCounters) (reason : Discard) : c.Grows (c.count reason) := by
  cases reason <;> constructor <;> simp [DiscardCounters.count, le_satInc]

/-- A discard counted at the receiver. -/
theorem ReceiverStep.discarded (x : LinkReceiver) (reason : Discard) :
    ReceiverStep x { x with discards := x.discards.count reason } :=
  ⟨rfl, DiscardCounters.Grows.count _ _, Iff.rfl, id, fun _ => id⟩

/-- Another decoding state of a receiver that decodes. -/
theorem ReceiverStep.setRx {rx : RxState} (hx : x.rx ≠ .notDecoding) (hrx : rx ≠ .notDecoding) (hb : x.rx.bounded → rx.bounded) :
    ReceiverStep x { x with rx := rx } :=
  ⟨rfl, DiscardCounters.Grows.refl _, iff_of_false hrx hx, hb, fun _ h => ⟨h.1, fun he => absurd he hrx⟩⟩

/-- A body byte collected keeps the bytes collected within bounds. -/
theorem collect_bounded (bytes : List Byte) (v : Byte) : (collect bytes v).bounded ∧ collect bytes v ≠ .notDecoding := by
  rw [collect_eq]
  split
  · next hlt => exact ⟨⟨by simp, by simp only [List.length_append, List.length_singleton]; omega⟩, nofun⟩
  · exact ⟨trivial, nofun⟩

/-- The settle figures of Table 7-4 are 64 to 512. -/
theorem settleFigure_le {code : Nat} (h : code ≤ 3) : settleFigure code ≤ 512 := by
  have hpow : 2 ^ code ≤ 2 ^ 3 := Nat.pow_le_pow_right (by omega) h
  unfold settleFigure
  omega

/-- No settle figure is 0. -/
theorem settleFigure_pos (code : Nat) : 0 < settleFigure code := Nat.mul_pos (by omega) (Nat.two_pow_pos code)

end

/-- A body is accepted in TRAINING only if it is a HELLO (Table 6-6). -/
theorem judgeBody_accepted {bytes : List Byte} {b : Body} (h : judgeBody .training bytes = .accepted b) : b.isHello = true := by
  simp only [judgeBody] at h
  by_cases hlength : bytes.length < 3
  case pos => rw [if_pos hlength] at h; exact absurd h nofun
  rw [if_neg hlength] at h
  by_cases hcrc : be16 (checkValue (bytes.take (bytes.length - 2))) ≠ bytes.drop (bytes.length - 2)
  case pos => rw [if_pos hcrc] at h; exact absurd h nofun
  rw [if_neg hcrc] at h
  rcases hkind : downKindOf ((bytes.take (bytes.length - 2)).getD 0 0) with _ | k <;> rw [hkind] at h
  · exact absurd h nofun
  · dsimp only at h
    split at h
    · cases k
      case hello =>
        rw [if_pos (show linkAccepts .training .hello = true from rfl)] at h
        rw [← Verdict.accepted.inj h]
        rfl
      all_goals exact absurd h nofun
    · exact absurd h nofun

section
variable {allow : EventKind → Prop} (s : State) (hl : allow .link)
include hl

/-- A body discarded (R111). -/
theorem State.discardBody_reach (reason : Discard) : Reach allow s (s.discardBody reason) := by
  have hcount : Reach allow s (s.countDiscard reason) := (Event.receiver s _ (ReceiverStep.discarded _ reason)).reach hl
  exact Reach.ite (fun _ => hcount.trans ((Event.linkAlert _ lineFlag).reach hl)) fun _ => hcount

/-- A byte of a receiver that decodes, but for the end of a body that is judged. -/
theorem State.setRx_reach {rx : RxState} (hx : s.lrx.rx ≠ .notDecoding) (hrx : rx ≠ .notDecoding)
    (hb : s.lrx.rx.bounded → rx.bounded) : Reach allow s (s.setRx rx) :=
  (Event.receiver s _ (ReceiverStep.setRx hx hrx hb)).reach hl

/-- A verdict carried out (R109, R110). -/
theorem State.applyVerdict_reach {link : Link} (bytes : List Byte) (hr : allow .receive)
    (hlink : s.lctl.link = .training → link = .training) : Reach allow s (s.applyVerdict (judgeBody link bytes)) := by
  have hreport (u : State) : Reach allow u u.reportFrame := (Event.reportMade u).reach hr
  cases hv : judgeBody link bytes with
  | discarded reason received =>
    cases received with
    | true => exact (hreport s).trans (State.discardBody_reach _ hl reason)
    | false => exact s.discardBody_reach hl reason
  | accepted b =>
    have hhello : s.lctl.link = .training → b.isHello = true := by
      intro h
      rw [hlink h] at hv
      exact judgeBody_accepted hv
    have hon (u : State) (hu : u.lctl.link = s.lctl.link) : Reach allow u (u.handOn b) :=
      (Event.handedOn u b (hu ▸ hhello)).reach hr
    cases b
    case hello e => exact hon s rfl
    all_goals exact (hreport s).trans (hon s.reportFrame rfl)

/-- A byte of a receiver that counts (R119). -/
theorem State.countSettle_reach (b : Byte) (hs : s.cmd.reading ≠ none → allow .status ∧ allow .path)
    (hrx : s.lrx.rx = .notDecoding) (hhanded : s.lrx.settles b = true → s.wires.handedOn = none) : Reach allow s (s.countSettle b) := by
  have hcounted (n : Nat) (hn : n = 0 ∨ n < settleFigure s.lrx.settleCode) :
      Reach allow s (s.withLrx { s.lrx with settleCount := n }) := by
    have hfigure : 0 < settleFigure s.lrx.settleCode := settleFigure_pos _
    refine (Event.receiver s { s.lrx with settleCount := n } ⟨rfl, DiscardCounters.Grows.refl _, Iff.rfl, id,
      fun hcode _ => ⟨?_, fun _ => ?_⟩⟩).reach hl
    · have hmost := settleFigure_le hcode
      simp only [State.withLrx_fields]
      omega
    · simp only [State.withLrx_fields]
      omega
  unfold State.countSettle
  refine Reach.ite (fun hb => ?_) fun _ => hcounted 0 (.inl rfl)
  refine Reach.ite (fun hfull => ?_) fun hless => hcounted _ (.inr (Nat.lt_of_not_le hless))
  have hsettles : s.lrx.settles b = true := by
    simp only [LinkReceiver.settles, hrx, hb, beq_self_eq_true, Bool.true_and, decide_eq_true_eq]
    exact hfull
  unfold State.settleReport
  cases hlink : (s.withLrx { s.lrx with settleCount := s.lrx.settleCount + 1 }).lctl.link with
  | down =>
    exact s.enterTraining_reach hl hs ⟨hlink, hrx, hhanded hsettles⟩ _ _ (Nat.le_refl _) (.inl rfl)
  | training => exact (Event.countedOn s _ hrx (by rw [show s.lctl.link = .training from hlink]; exact nofun)).reach hl
  | up => exact (Event.countedOn s _ hrx (by rw [show s.lctl.link = .up from hlink]; exact nofun)).reach hl

/-- One downlink byte, judged against a link state that is TRAINING while the link is (Table 6-5, R109). -/
theorem State.takeByte_reach {link : Link} (b : Byte) (hs : s.cmd.reading ≠ none → allow .status ∧ allow .path) (hr : allow .receive)
    (hlink : s.lctl.link = .training → link = .training) (hhanded : s.lrx.settles b = true → s.wires.handedOn = none) :
    Reach allow s (s.takeByte link b) := by
  unfold State.takeByte
  cases hrx : s.lrx.rx with
  | notDecoding => exact s.countSettle_reach hl b hs hrx hhanded
  | between =>
    have hset {rx : RxState} (hne : rx ≠ .notDecoding) (hb : rx.bounded) : Reach allow s (s.setRx rx) :=
      s.setRx_reach hl (by rw [hrx]; exact nofun) hne fun _ => hb
    exact Reach.ite (fun _ => Reach.refl s) fun _ => Reach.ite (fun _ => hset nofun (Nat.zero_le 64)) fun _ =>
      hset nofun ⟨Nat.le_refl 1, by simp⟩
  | collecting bytes =>
    have hset {rx : RxState} (hne : rx ≠ .notDecoding) (hb : bytes.length ≤ 64 → rx.bounded) : Reach allow s (s.setRx rx) :=
      s.setRx_reach hl (by rw [hrx]; exact nofun) hne (by rw [hrx]; exact fun h => hb h.2)
    refine Reach.ite (fun _ => ?_) fun _ => Reach.ite (fun _ => hset nofun id) fun _ => ?_
    · exact (hset (rx := .between) nofun fun _ => trivial).trans (State.applyVerdict_reach _ hl bytes hr hlink)
    · exact hset (collect_bounded bytes b).2 fun _ => (collect_bounded bytes b).1
  | escaped bytes =>
    have hset {rx : RxState} (hne : rx ≠ .notDecoding) (hb : bytes.length ≤ 64 → rx.bounded) : Reach allow s (s.setRx rx) :=
      s.setRx_reach hl (by rw [hrx]; exact nofun) hne (by rw [hrx]; exact hb)
    refine Reach.ite (fun _ => ?_) fun _ => ?_
    · exact (hset (rx := .between) nofun fun _ => trivial).trans (State.discardBody_reach _ hl _)
    · cases unescaped b with
      | some v => exact hset (collect_bounded bytes v).2 fun _ => (collect_bounded bytes v).1
      | none => exact hset nofun fun _ => trivial
  | discarding reason =>
    have hset {rx : RxState} (hne : rx ≠ .notDecoding) (hb : rx.bounded) : Reach allow s (s.setRx rx) :=
      s.setRx_reach hl (by rw [hrx]; exact nofun) hne fun _ => hb
    exact Reach.ite (fun _ => (hset (rx := .between) nofun trivial).trans (State.discardBody_reach _ hl _)) fun _ => Reach.refl s

end

end Sys2Proof.Machine
end

section
/-! PROOFS. The events of the commands of the recorder (chapter 9). -/

namespace Sys2Proof.Machine

/-! ### The mark EXECUTING -/

/-- The command unit EXECUTING a command (R155). -/
def State.executing (s : State) : State := s.withCmd { s.cmd with execState := .executing }

/-- The reply formed ends the execution. -/
theorem State.giveReply_executing (r : Reply) (s : State) : s.executing.giveReply r = s.giveReply r := by
  rw [State.giveReply_eq, State.giveReply_eq]
  rfl

/-- A claim has nothing to do with the mark. -/
theorem State.claim_executing (c : Claim) (s : State) :
    s.executing.claim c = ((s.claim c).1.executing, (s.claim c).2) := by
  rw [State.claim_eq, State.claim_eq]
  simp only [State.executing, State.withCmd_fields]
  split <;> rfl

/-- Nor has what follows a change of freeze. -/
theorem State.freezeChanged_executing (before : Bool) (cause : FreezeCause) (s : State) :
    s.executing.freezeChanged before cause = (s.freezeChanged before cause).executing := by
  have hfrzu : s.executing.frzu = s.frzu := rfl
  unfold State.freezeChanged
  rw [hfrzu]
  dsimp only
  by_cases h : s.frzu.effective = before
  · rw [if_pos h, if_pos h]
  · rw [if_neg h, if_neg h]
    cases s.frzu.effective <;> rfl

/-- Nor has a change of command freeze. -/
theorem State.setCommandFreeze_executing (on : Bool) (s : State) :
    s.executing.setCommandFreeze on = (s.setCommandFreeze on).executing :=
  State.freezeChanged_executing s.frzu.effective .command (s.withFrzu { s.frzu with commandFreeze := on })

/-- Nor has a journal restart. -/
theorem State.restartJournal_executing (s : State) : s.executing.restartJournal = s.restartJournal.executing := by
  simp only [State.restartJournal, State.abortSending_eq, State.sendSpaceFreed_eq]
  rfl

/-- Nor have the entries to DOWN. -/
theorem State.takeDown_executing (s : State) : s.executing.takeDown = s.takeDown.executing := by
  have hltx (u : State) : u.executing.ltxTakesDown = u.ltxTakesDown.executing := by
    rw [State.ltxTakesDown_eq, State.ltxTakesDown_eq]
    rfl
  have hdlv (u : State) : u.executing.dlvTakesDown = u.dlvTakesDown.executing := by
    have hwires : u.executing.wires = u.wires := rfl
    rw [State.dlvTakesDown_return, State.dlvTakesDown_return, hltx, hwires]
    split <;> rfl
  have hlrx (u : State) : u.executing.lrxTakesDown = u.lrxTakesDown.executing := by
    rw [State.lrxTakesDown_eq, State.lrxTakesDown_eq]
    rfl
  have hcmd (u : State) : u.executing.cmdTakesDown = u.cmdTakesDown.executing := by
    rw [State.cmdTakesDown_eq, State.cmdTakesDown_eq]
    rfl
  have halr (u : State) : u.executing.alrTakesDown = u.alrTakesDown.executing := by
    rw [State.alrTakesDown_eq, State.alrTakesDown_eq]
    rfl
  simp only [State.takeDown, State.takeDownBy, if_true, hltx, hdlv, hlrx, hcmd, halr]

section
variable {s : State}

/-- With no GET-STATUS being executed, nor has the entry to TRAINING. -/
theorem State.enterTraining_executing (hr : s.cmd.reading = none) : s.executing.enterTraining = s.enterTraining.executing := by
  have hreading : s.takeFrameReport.cmd.reading = none := by rw [State.takeFrameReport_eq]; exact hr
  have hreport : s.executing.takeFrameReport = s.takeFrameReport.executing := by
    rw [State.takeFrameReport_eq, State.takeFrameReport_eq]
    rfl
  rw [State.enterTraining, State.enterTraining, hreport, State.finishStatus_none _ hreading,
    State.finishStatus_none s.takeFrameReport.executing hreading, State.takeDown_executing]
  rfl

/-- The entry to TRAINING begins no GET-STATUS and queues no reply. -/
theorem State.enterTraining_cmd (hr : s.cmd.reading = none) :
    s.enterTraining.cmd.reading = none ∧ s.enterTraining.cmd.replies.length ≤ s.cmd.replies.length := by
  have hreport : s.takeFrameReport.cmd = s.cmd := by rw [State.takeFrameReport_eq]
  rw [State.enterTraining, State.finishStatus_none _ (by rw [hreport, hr])]
  change s.takeFrameReport.takeDown.cmd.reading = none ∧
    s.takeFrameReport.takeDown.cmd.replies.length ≤ s.cmd.replies.length
  refine State.takeDownBy_keeps (fun u => u.cmd.reading = none ∧ u.cmd.replies.length ≤ s.cmd.replies.length) _ ?_ ?_ ?_ ?_ ?_ _
    (by rw [hreport]; exact ⟨hr, Nat.le_refl _⟩) <;> rintro u ⟨hr, hq⟩
  · rw [State.ltxTakesDown_eq]; exact ⟨hr, hq⟩
  · obtain ⟨-, -, -, -, -, -, -, hcmd, -⟩ := u.dlvTakesDown_fields
    rw [hcmd]
    exact ⟨hr, hq⟩
  · rw [State.lrxTakesDown_eq]; exact ⟨hr, hq⟩
  · rw [State.cmdTakesDown_eq]
    refine ⟨hr, ?_⟩
    dsimp only
    split
    · exact Nat.zero_le _
    · exact hq
  · rw [State.alrTakesDown_eq]; exact ⟨hr, hq⟩

end

/-! ### The commands -/

/-- The kinds of events of a command with this code. -/
def allowsCode (code : Byte) : EventKind → Prop
  | .path | .link | .status | .clock | .command => True
  | .hit | .receive | .rise | .period => False
  | .setEntry    => code = 0x02
  | .clearTable  => code = 0x03
  | .setParam    => code = 0x05
  | .getStatus   => code = 0x06
  | .clearAlerts => code = 0x07

/-- A state in which a command may be run: none is being executed, the queue has room. -/
structure State.MayReply (s : State) : Prop where
  reading : s.cmd.reading = none
  room    : s.cmd.replies.length < 4

section
variable {allow : EventKind → Prop} {s : State} {tag code : Byte} {args : List Byte}

/-- A command executed whole ends with its reply. -/
theorem State.answered_reach {t : State} (h : Reach allow s t) (ht : t.MayReply) (result : Result) (data : List Byte)
    (hc : allow .command) : Reach allow s (State.formReply tag code (done t.executing result data)) := by
  rw [State.formReply_done, State.giveReply_executing, State.giveReply_eq]
  exact h.trans ((Event.replied t _ ht.reading ht.room).reach hc)

/-- What follows a change of freeze (R97). -/
theorem State.freezeChanged_reach (before : Bool) (cause : FreezeCause) (s : State) (hp : allow .path) :
    Reach allow s (s.freezeChanged before cause) :=
  Reach.ite (fun _ => Reach.refl s) fun _ => Reach.ite
    (fun _ => (s.postClaim_reach _ _ hp).trans (State.setAlert_reach _ _ hp)) fun _ => s.postClaim_reach _ _ hp

/-- It leaves the command unit alone. -/
theorem State.freezeChanged_cmd (before : Bool) (cause : FreezeCause) (s : State) :
    (s.freezeChanged before cause).cmd = s.cmd := by
  unfold State.freezeChanged
  dsimp only
  split
  · rfl
  · split <;> rfl

/-- A journal restart (R81). -/
theorem State.restartJournal_reach (s : State) (hl : allow .link) (hc : allow .command) : Reach allow s s.restartJournal := by
  have habort : LineStep s.ltx (match s.jctl.sendingSeq with
      | some seq => s.ltx.abortJournal seq
      | none     => s.ltx) := by
    cases s.jctl.sendingSeq with
    | none => exact LineStep.refl _
    | some seq => exact LineStep.abortJournal seq _
  rw [State.restartJournal, State.sendSpaceFreed_eq, State.abortSending_eq]
  exact ((s.line_reach hl habort).trans ((Event.restarted _).reach hc)).trans
    ((Event.reports _ s.wires.sendEnd s.wires.sendReport _ s.wires.retryReports).reach hl)

/-- A parameter set. -/
theorem State.setParamValue_reach (p : Param) {v : Nat} (hv : paramInRange p v = true) (hm : s.MayReply)
    (hh : s.wires.handedOn = none) (hl : allow .link) (hs : allow .status) (hp : allow .path) (hset : allow .setParam) :
    ∃ t, s.executing.setParamValue p v = t.executing ∧ Reach allow s t ∧ t.MayReply := by
  by_cases hsettle : p = .settleCode
  case neg =>
    refine ⟨s.setParamValue p v, ?_, (Event.paramSet s p v hv hsettle).reach hset, ?_⟩
    · cases p
      case settleCode => exact absurd rfl hsettle
      all_goals rfl
    · cases p
      case settleCode => exact absurd rfl hsettle
      all_goals exact ⟨hm.reading, hm.room⟩
  subst hsettle
  have hcode : v ≤ 3 := by
    simp only [paramInRange, paramLeast, paramGreatest, Bool.and_eq_true] at hv
    exact of_decide_eq_true hv.2
  have hheld (hless : s.lrx.rx = .notDecoding → s.lrx.settleCount < settleFigure v ∨ s.lctl.link ≠ .down) :
      Reach allow s (s.settling s.lrx.settleCount v) := (Event.settleCodeSet s v hcode hless).reach hset
  have hplain : (s.settling s.lrx.settleCount v).MayReply := ⟨hm.reading, hm.room⟩
  have hset' (u : State) : u.setParamValue .settleCode v = match u.lrx.rx with
      | .notDecoding => if u.lrx.settleCount ≥ settleFigure v then (u.settling u.lrx.settleCount v).settleReport
        else u.settling u.lrx.settleCount v
      | .between | .collecting _ | .escaped _ | .discarding _ => u.settling u.lrx.settleCount v := rfl
  have hlrx : s.executing.lrx = s.lrx := rfl
  rw [hset', hlrx]
  by_cases hrx : s.lrx.rx = .notDecoding
  case neg =>
    refine ⟨s.settling s.lrx.settleCount v, ?_, hheld fun h => absurd h hrx, hplain⟩
    cases h : s.lrx.rx
    case notDecoding => exact absurd h hrx
    all_goals rfl
  rw [hrx]
  dsimp only
  by_cases hfull : s.lrx.settleCount ≥ settleFigure v
  case neg =>
    rw [if_neg hfull]
    exact ⟨s.settling s.lrx.settleCount v, rfl, hheld fun _ => .inl (Nat.lt_of_not_le hfull), hplain⟩
  rw [if_pos hfull]
  by_cases hlink : s.lctl.link = .down
  case neg =>
    refine ⟨s.settling s.lrx.settleCount v, ?_, hheld fun _ => .inr hlink, hplain⟩
    have hlctl : (s.executing.settling s.lrx.settleCount v).lctl.link = s.lctl.link := rfl
    unfold State.settleReport
    rw [hlctl]
    cases h : s.lctl.link
    case down => exact absurd h hlink
    all_goals rfl
  have htrain := State.enterTraining_executing (s := s.settling s.lrx.settleCount v) hm.reading
  have hlctl : (s.executing.settling s.lrx.settleCount v).lctl.link = .down := hlink
  obtain ⟨hreading, hreplies⟩ := State.enterTraining_cmd (s := s.settling s.lrx.settleCount v) hm.reading
  refine ⟨(s.settling s.lrx.settleCount v).enterTraining, ?_,
    s.enterTraining_reach hl (fun _ => ⟨hs, hp⟩) ⟨hlink, hrx, hh⟩ _ v (Nat.le_succ _)
    (.inr ⟨hset, hcode⟩), hreading, Nat.lt_of_le_of_lt hreplies hm.room⟩
  unfold State.settleReport
  rw [hlctl]
  exact htrain

/-- The codes of Table 6-15 one by one. -/
theorem code_cases (code : Byte) : (code = 0x01 ∨ code = 0x02 ∨ code = 0x03 ∨ code = 0x04 ∨ code = 0x05 ∨ code = 0x06 ∨
    code = 0x07 ∨ code = 0x08 ∨ code = 0x09 ∨ code = 0x0A ∨ code = 0x0B ∨ code = 0x0C) ∨ (code = 0x00 ∨ 0x0C < code) := by
  bv_omega

section
variable (hm : s.MayReply) (hc : allow .command)
include hm hc

/-- GET-ENTRY (R157). -/
theorem runGetEntry_reach : Reach allow s (State.formReply tag code (runGetEntry args s.executing)) := by
  unfold runGetEntry
  dsimp only
  split <;> exact State.answered_reach (Reach.refl s) hm _ _ hc

/-- SET-ENTRY (R158). -/
theorem runSetEntry_reach (h : allow .setEntry) : Reach allow s (State.formReply tag code (runSetEntry args s.executing)) :=
  State.answered_reach ((Event.entrySet s args).reach h) ⟨hm.reading, hm.room⟩ _ _ hc

/-- CLEAR-TABLE (R158). -/
theorem runClearTable_reach (h : allow .clearTable) : Reach allow s (State.formReply tag code (runClearTable s.executing)) :=
  State.answered_reach ((Event.tableCleared s).reach h) ⟨hm.reading, hm.room⟩ _ _ hc

/-- GET-PARAM (R159). -/
theorem runGetParam_reach : Reach allow s (State.formReply tag code (runGetParam args s.executing)) := by
  unfold runGetParam
  split <;> exact State.answered_reach (Reach.refl s) hm _ _ hc

/-- SET-PARAM (R160). -/
theorem runSetParam_reach (hh : s.wires.handedOn = none) (hl : allow .link) (hs : allow .status) (hp : allow .path)
    (h : allow .setParam) : Reach allow s (State.formReply tag code (runSetParam args s.executing)) := by
  unfold runSetParam
  split
  · split
    · next p _ hv =>
      obtain ⟨t, heq, ht, hmt⟩ := State.setParamValue_reach p hv hm hh hl hs hp h
      rw [heq]
      exact State.answered_reach ht hmt _ _ hc
    · exact State.answered_reach (Reach.refl s) hm _ _ hc
  · exact State.answered_reach (Reach.refl s) hm _ _ hc

/-- GET-STATUS (R161). -/
theorem runGetStatus_reach (hon : s.lctl.link = .up ∨ s.wires.falling.cmd = true) (h : allow .getStatus) :
    Reach allow s (State.formReply tag code (runGetStatus tag args s.executing)) := by
  unfold runGetStatus
  split
  · next clear _ => exact (Event.begun s ⟨tag, clear, [], 0⟩ hm.reading hm.room rfl rfl hon).reach h
  · exact State.answered_reach (Reach.refl s) hm _ _ hc

/-- CLEAR-ALERTS (R162). -/
theorem runClearAlerts_reach (h : allow .clearAlerts) :
    Reach allow s (State.formReply tag code (runClearAlerts args s.executing)) :=
  State.answered_reach ((Event.alertsCleared s _).reach h) ⟨hm.reading, hm.room⟩ _ _ hc

/-- FLUSH (R163). -/
theorem runFlush_reach (h : allow .path) : Reach allow s (State.formReply tag code (runFlush s.executing)) := by
  unfold runFlush
  split
  · exact State.answered_reach (t := s.withJctl (s.jctl.closeOpen .flush))
      ((Event.store s _ (s.jctl.closeOpen_step .flush)).reach h) ⟨hm.reading, hm.room⟩ _ _ hc
  · exact State.answered_reach (Reach.refl s) hm _ _ hc

/-- MARK (R164). -/
theorem runMark_reach (h : allow .path) : Reach allow s (State.formReply tag code (runMark args s.executing)) := by
  unfold runMark
  split
  · dsimp only
    rw [State.claim_executing]
    have hcmd (c : Claim) : (s.claim c).1.cmd = s.cmd := by simp
    exact State.answered_reach (s.claim_reach _ h) ⟨by rw [hcmd]; exact hm.reading, by rw [hcmd]; exact hm.room⟩ _ _ hc
  · exact State.answered_reach (Reach.refl s) hm _ _ hc

omit hm hc in
/-- A change of command freeze (R97 to R99). -/
theorem State.setCommandFreeze_reach (on : Bool) (h : allow .path) (hclock : allow .clock) :
    Reach allow s (s.setCommandFreeze on) := by
  refine Reach.trans ((Event.inputs s s.mrk { s.frzu with commandFreeze := on } rfl rfl (.inl rfl) rfl (.inl rfl)).reach hclock) ?_
  exact State.freezeChanged_reach _ _ _ h

/-- FREEZE and THAW (R98, R99). -/
theorem freeze_reach (on : Bool) (result : Result) (h : allow .path) (hclock : allow .clock) :
    Reach allow s (State.formReply tag code (done (s.executing.setCommandFreeze on) result [])) := by
  have hcmd : (s.setCommandFreeze on).cmd = s.cmd := State.freezeChanged_cmd _ _ _
  rw [State.setCommandFreeze_executing]
  exact State.answered_reach (s.setCommandFreeze_reach on h hclock)
    ⟨by rw [hcmd]; exact hm.reading, by rw [hcmd]; exact hm.room⟩ _ _ hc

/-- RESTART-JOURNAL (R165). -/
theorem runRestartJournal_reach (hl : allow .link) :
    Reach allow s (State.formReply tag code (runRestartJournal s.executing)) := by
  have hcmd : s.restartJournal.cmd = s.cmd := by simp [State.restartJournal, State.abortSending_eq, State.sendSpaceFreed_eq]
  unfold runRestartJournal
  rw [State.restartJournal_executing]
  exact State.answered_reach (s.restartJournal_reach hl hc) ⟨by rw [hcmd]; exact hm.reading, by rw [hcmd]; exact hm.room⟩ _ _ hc

end

/-- A command that is run (Tables 6-15 and 9-3). -/
theorem State.runCode_reach (hk : ∀ k, allowsCode code k → allow k) (hm : s.MayReply) (hh : s.wires.handedOn = none)
    (hon : s.lctl.link = .up ∨ s.wires.falling.cmd = true) :
    Reach allow s (State.formReply tag code (runCode tag code args s)) := by
  have hl : allow .link := hk _ trivial
  have hs : allow .status := hk _ trivial
  have hp : allow .path := hk _ trivial
  have hclock : allow .clock := hk _ trivial
  have hc : allow .command := hk _ trivial
  have hplain (result : Result) (data : List Byte) : Reach allow s (State.formReply tag code (done s result data)) := by
    rw [State.formReply_done, State.giveReply_eq]
    exact (Event.replied s _ hm.reading hm.room).reach hc
  have hlength (n : Nat) (run : State → Executed) (hrun : Reach allow s (State.formReply tag code (run s.executing))) :
      Reach allow s (State.formReply tag code (withLength n args run s)) := by
    by_cases h : args.length = n
    · rw [withLength_right n args run s h]; exact hrun
    · rw [withLength_wrong n args run s h]; exact hplain _ _
  obtain hknown | hunknown := code_cases code
  case inr => rw [runCode_unknown hunknown]; exact hplain _ _
  rcases hknown with rfl | rfl | rfl | rfl | rfl | rfl | rfl | rfl | rfl | rfl | rfl | rfl
  · exact hlength 1 _ (runGetEntry_reach hm hc)
  · exact hlength 18 _ (runSetEntry_reach hm hc (hk .setEntry rfl))
  · exact hlength 0 _ (runClearTable_reach hm hc (hk .clearTable rfl))
  · exact hlength 1 _ (runGetParam_reach hm hc)
  · exact hlength 5 _ (runSetParam_reach hm hc hh hl hs hp (hk .setParam rfl))
  · exact hlength 1 _ (runGetStatus_reach hm hc hon (hk .getStatus rfl))
  · exact hlength 1 _ (runClearAlerts_reach hm hc (hk .clearAlerts rfl))
  · exact hlength 0 _ (runFlush_reach hm hc hp)
  · exact hlength 3 _ (runMark_reach hm hc hp)
  · exact hlength 0 _ (freeze_reach hm hc true .ok hp hclock)
  · exact hlength 0 _ (freeze_reach hm hc false _ hp hclock)
  · exact hlength 0 _ (runRestartJournal_reach hm hc hl)

/-- The taking of a command (Table 9-3). -/
theorem State.intake_reach (hk : ∀ k, allowsCode code k → allow k) (hh : s.wires.handedOn = none) :
    Reach allow s (s.intake tag code (runCode tag code args)) := by
  have hl : allow .link := hk _ trivial
  have hc : allow .command := hk _ trivial
  refine (s.finishStatus_reach fun _ => ⟨hk _ trivial, hk _ trivial⟩).trans ?_
  obtain ⟨-, -, -, -, -, -, -, -, -, -, hreading⟩ := s.finishStatus_fields
  have hown : s.finishStatus.wires.handedOn = none :=
    (congrArg Beside.handedOn (State.ownBeside_comm State.finishStatus_beside s)).trans hh
  obtain ⟨-, h⟩ | ⟨-, -, h⟩ | ⟨-, hroom, r, -, -, h⟩ | ⟨⟨hon, hroom, -⟩, h⟩ :=
    State.examine_cases tag code (runCode tag code args) s.finishStatus <;> rw [State.intake, h]
  · exact (Event.receiver _ _ (ReceiverStep.discarded _ .state)).reach hl
  · exact (Event.discardedFull _).reach hc
  · have hqueue (v : State) : v.queueReply r = { v with cmd := { v.cmd with
        replies := if v.offLine then v.cmd.replies else v.cmd.replies ++ [r] } } := by
      unfold State.queueReply
      split <;> rfl
    rw [hqueue]
    exact (Event.requeued _ r hreading hroom).reach hc
  · exact State.runCode_reach hk ⟨hreading, hroom⟩ hown hon

end

end Sys2Proof.Machine
end

section
/-! PROOFS. The events of the clock, of the handing on of bodies and of every command (chapter 5, section 6.3). -/

namespace Sys2Proof.Machine

/-! ### What events of some kinds keep -/

section
variable {k : EventKind} {s t : State} (he : Event k s t)
include he

/-- With no body waiting, none waits after an event that is not the receiver's. -/
theorem Event.handedOn_none (hk : k ≠ .receive) (h : s.wires.handedOn = none) : t.wires.handedOn = none := by
  cases he
  case handedOn => exact absurd rfl hk
  case handedOff => rfl
  case paramSet p _ _ hne =>
    cases p
    case settleCode => exact absurd rfl hne
    all_goals exact h
  all_goals exact h

/-- With no GET-STATUS being executed, none is after an event that does not begin one. -/
theorem Event.reading_none (hk : k ≠ .getStatus) (h : s.cmd.reading = none) : t.cmd.reading = none := by
  cases he
  case begun => exact absurd rfl hk
  case readOn r q n _ _ _ hr _ => rw [h] at hr; exact absurd hr nofun
  case statusReplied | replied => rfl
  case cleared of _ _ =>
    rw [State.clearCounters_eq]
    dsimp only
    split <;> exact h
  case paramSet p _ _ hne =>
    cases p
    case settleCode => exact absurd rfl hne
    all_goals exact h
  all_goals exact h

/-- A tick that is not due is due only after a CLK period. -/
theorem Event.tickDue_none (hk : k ≠ .period) (h : s.tbs.tickDue = false) : t.tbs.tickDue = false := by
  cases he
  case period => exact absurd rfl hk
  case tick => rfl
  case paramSet p _ _ hne =>
    cases p
    case settleCode => exact absurd rfl hne
    all_goals exact h
  all_goals exact h

/-- A byte of the uplink that is not due is due only after a CLK period. -/
theorem Event.byteDue_none (hk : k ≠ .period) (h : s.ltx.byteDue = false) : t.ltx.byteDue = false := by
  have hline {x : LinkTransmitter} (hx : LineStep s.ltx x) : x.byteDue = false := by
    rw [← Bool.not_eq_true] at h ⊢
    exact fun hd => h (hx.due hd)
  cases he
  case period => exact absurd rfl hk
  case line x hx => exact hline hx
  case upTaken hx => exact hline hx
  case ltxDown x _ _ hx => exact hline hx
  case cleared of _ _ =>
    rw [State.clearCounters_eq]
    dsimp only
    split <;> exact h
  case paramSet p _ _ hne =>
    cases p
    case settleCode => exact absurd rfl hne
    all_goals exact h
  all_goals exact h

end

/-! ### The clock -/

section
variable {allow : EventKind → Prop} (s : State)

/-- A marker takes an edge (R94). -/
theorem State.takeEdge_reach (pin : MarkPin) (rising : Bool) (hp : allow .path) : Reach allow s (s.takeEdge pin rising) :=
  Reach.ite (fun _ => s.postClaim_reach _ _ hp) fun _ => Reach.refl s

/-- One sample at a marker input (R89). -/
theorem State.sampleMarker_reach (pin : MarkPin) (hp : allow .path) (hc : allow .clock) :
    Reach allow s (s.sampleMarker pin) := by
  have hfilter (f : PerMark Filter) : Reach allow s (s.withMrk { s.mrk with filters := f }) :=
    (Event.inputs s { s.mrk with filters := f } s.frzu rfl rfl (.inl rfl) rfl (.inl rfl)).reach hc
  unfold State.sampleMarker
  dsimp only
  split
  · exact (hfilter _).trans (State.takeEdge_reach _ _ _ hp)
  · exact hfilter _

/-- One sample at the FRZ filter (R96). -/
theorem State.sampleFreeze_reach (hp : allow .path) (hc : allow .clock) : Reach allow s s.sampleFreeze :=
  let filtered := filterSample (filterTime s.freezeCode) s.pins.frz s.frzu.filter
  Reach.trans
    ((Event.inputs s s.mrk { s.frzu with filter := filtered.1 } rfl rfl (.inl rfl) rfl (.inl rfl)).reach hc)
    (State.freezeChanged_reach s.frzu.effective .pin _ hp)

/-- Both units hold a new FILTER-CODE (R91). -/
theorem State.settleCodes_reach (hc : allow .clock) : Reach allow s s.settleCodes :=
  (Event.inputs s { s.mrk with codeInUse := s.mrk.filterCode } { s.frzu with codeInUse := s.frzu.filterCode }
    rfl rfl (.inr rfl) rfl (.inr rfl)).reach hc

/-- What follows the tick at the counters. -/
theorem State.sampling_reach (hp : allow .path) (hl : allow .link) (hc : allow .clock) :
    Reach allow s s.sampleInputs.countChoice.settleCodes := by
  have hinputs : Reach allow s s.sampleInputs :=
    ((((s.sampleMarker_reach .m0 hp hc).trans (State.sampleMarker_reach _ .m1 hp hc)).trans
      (State.sampleMarker_reach _ .m2 hp hc)).trans (State.sampleMarker_reach _ .m3 hp hc)).trans
      (State.sampleFreeze_reach _ hp hc)
  exact (hinputs.trans (Reach.ite (fun _ => State.drawn_reach _ hl (Nat.le_succ _)) fun _ => Reach.refl _)).trans
    (State.settleCodes_reach _ hc)

/-- One tick (R84). -/
theorem State.takeTick_reach (hp : allow .path) (hl : allow .link) (hc : allow .clock) : Reach allow s s.takeTick :=
  (((s.takeClaimsOf_reach _ hp).trans (State.takeFrameReport_reach _ hl)).trans ((Event.tick _).reach hc)).trans
    (State.sampling_reach _ hp hl hc)

/-- After a tick none is due. -/
theorem State.takeTick_tickDue : s.takeTick.tbs.tickDue = false :=
  Reach.keeps (fun _ _ _ hk he => he.tickDue_none hk) (State.sampling_reach (allow := (· ≠ .period)) _ nofun nofun nofun) rfl

/-- After a byte of the body in progress none is due, but with none in progress it may be. -/
theorem State.sendByte_byteDue (h : s.ltx.body = none → s.ltx.byteDue = false) : s.sendByte.ltx.byteDue = false := by
  unfold State.sendByte
  cases hsent : s.ltx.allSent with
  | true =>
    rw [if_pos rfl, State.endBody_eq]
    rfl
  | false =>
    rw [if_neg (by simp)]
    simp only [State.withLtx_fields, LinkTransmitter.sendBodyByte]
    cases hb : s.ltx.body with
    | none => exact h hb
    | some b =>
      simp only [LinkTransmitter.allSent, hb, Option.isNone_eq_false_iff] at hsent
      obtain ⟨⟨v, inCheck⟩, hn⟩ := Option.isSome_iff_exists.1 hsent
      rw [Option.bind_some, hn]
      dsimp only
      split
      · rfl
      · split <;> rfl

/-- After the choice at a frame boundary a body is in progress, or no byte is due. -/
theorem State.chooseBody_byteDue (h : s.chooseBody.ltx.body = none) : s.chooseBody.ltx.byteDue = false := by
  have hfill (x : LinkTransmitter) : x.fill.byteDue = false := by
    unfold LinkTransmitter.fill
    split
    · rfl
    · next hd => exact Bool.eq_false_iff.2 hd
  revert h
  unfold State.chooseBody
  dsimp only
  split
  · exact fun _ => hfill _
  · split
    · exact fun h => absurd h nofun
    · exact fun _ => hfill _
  · unfold State.arbitrate
    split
    · exact fun h => absurd h nofun
    · split
      · exact fun h => absurd h nofun
      · exact fun _ => hfill _

/-- After a byte time no byte is due. -/
theorem State.byteTime_byteDue : s.byteTime.ltx.byteDue = false := by
  obtain ⟨b, rest, -, h⟩ | ⟨-, -, h⟩ | ⟨-, hb, h⟩ := s.byteTime_cases <;> rw [h]
  · rfl
  · exact State.sendByte_byteDue _ s.chooseBody_byteDue
  · exact s.sendByte_byteDue fun hn => absurd hn hb

/-- What is due before a CLK period (log 2). -/
theorem State.takeDue_reach (hp : allow .path) (hl : allow .link) (hs : allow .status) (hc : allow .clock) :
    Reach allow s s.takeDue := by
  have hmoment {u v : State} (h : Reach allow u v) : Reach allow u v.ownersAnswer :=
    h.trans (v.ownersAnswer_reach fun _ => hs)
  have hreport : Reach allow s s.takePathClaims.ownersAnswer.takeFrameReport :=
    (hmoment (s.takePathClaims_reach hp)).trans (State.takeFrameReport_reach _ hl)
  have htick (u : State) : Reach allow u (if u.tbs.tickDue then u.takeTick.ownersAnswer else u) :=
    Reach.ite (fun _ => hmoment (u.takeTick_reach hp hl hc)) fun _ => Reach.refl u
  have hend (u : State) : Reach allow u u.finishSendEnd.ownersAnswer := hmoment (u.finishSendEnd_reach hl)
  have hbyte (u : State) : Reach allow u (if u.ltx.byteDue then u.byteTime.ownersAnswer else u) :=
    Reach.ite (fun _ => hmoment (u.byteTime_reach hl)) fun _ => Reach.refl u
  have hrest (u : State) : Reach allow u u.takeUp.ownersAnswer.takeDown.settleCodes :=
    ((hmoment (u.takeUp_reach hl)).trans (State.takeDownBy_reach _ hl _)).trans (State.settleCodes_reach _ hc)
  exact (((hreport.trans (htick _)).trans (hend _)).trans (hbyte _)).trans (hrest _)

end

section
variable (s : State)

/-- Once what is due is taken, neither a tick nor a byte is due. -/
theorem State.takeDue_nothingDue : s.takeDue.tbs.tickDue = false ∧ s.takeDue.ltx.byteDue = false := by
  have hkept {u v : State} (h : Reach (· ≠ .period) u v) :
      (u.tbs.tickDue = false → v.tbs.tickDue = false) ∧ (u.ltx.byteDue = false → v.ltx.byteDue = false) :=
    ⟨h.keeps fun _ _ _ hk he => he.tickDue_none hk, h.keeps fun _ _ _ hk he => he.byteDue_none hk⟩
  have hmoment (u : State) : Reach (· ≠ .period) u u.ownersAnswer := u.ownersAnswer_reach fun _ => nofun
  have htick (u : State) : (if u.tbs.tickDue then u.takeTick.ownersAnswer else u).tbs.tickDue = false := by
    split
    · exact (hkept (hmoment _)).1 u.takeTick_tickDue
    · next h => exact Bool.eq_false_iff.2 h
  have hbyte (u : State) (hu : u.tbs.tickDue = false) :
      (if u.ltx.byteDue then u.byteTime.ownersAnswer else u).tbs.tickDue = false ∧
      (if u.ltx.byteDue then u.byteTime.ownersAnswer else u).ltx.byteDue = false := by
    split
    · exact ⟨(hkept ((u.byteTime_reach nofun).trans (hmoment _))).1 hu, (hkept (hmoment _)).2 u.byteTime_byteDue⟩
    · next h => exact ⟨hu, Bool.eq_false_iff.2 h⟩
  have hrest (u : State) : Reach (· ≠ .period) u u.takeUp.ownersAnswer.takeDown.settleCodes :=
    (((u.takeUp_reach nofun).trans (hmoment _)).trans (State.takeDownBy_reach _ nofun _)).trans
      (State.settleCodes_reach _ nofun)
  obtain ⟨hdue, hsent⟩ := hbyte _ ((hkept ((State.finishSendEnd_reach _ nofun).trans (hmoment _))).1 (htick _))
  exact ⟨(hkept (hrest _)).1 hdue, (hkept (hrest _)).2 hsent⟩

variable {allow : EventKind → Prop} (hp : allow .path) (hl : allow .link) (hs : allow .status) (hc : allow .clock)
  (ht : allow .period)
include hp hl hs hc ht

/-- One CLK period (log 2). -/
theorem State.clkPeriod_reach : Reach allow s s.clkPeriod := by
  obtain ⟨htick, hbyte⟩ := s.takeDue_nothingDue
  exact ((s.takeDue_reach hp hl hs hc).trans ((Event.period _ htick hbyte).reach ht)).trans
    (State.statusPeriod_reach _ hs hp)

/-- TICK (R84). -/
theorem State.tick_reach (p : Pins) : Reach allow s ((s.clkPeriods s.tbs.periodsLeft).withPins p).takeTick :=
  ((State.clkPeriods_keeps (Reach allow s) (fun u h => h.trans (u.clkPeriod_reach hp hl hs hc ht)) _ s (Reach.refl s)).trans
    ((Event.levels _ p).reach hc)).trans (State.takeTick_reach _ hp hl hc)

end

end Sys2Proof.Machine
end

section
/-! PROOFS. The kinds of events of every command, and of a step (Table 95-1). -/

namespace Sys2Proof.Machine

/-! ### Downlink bytes -/

/-- The kinds of events of a downlink byte: the receiver's and the link's, those of a command that waits, and those of a
GET-STATUS that ends. -/
def State.byteAllows (s : State) (k : EventKind) : Prop :=
  k = .link ∨ k = .receive ∨ k = .rise ∨ (s.cmd.reading ≠ none ∧ (k = .path ∨ k = .status)) ∨
  ∃ tag code args, s.wires.handedOn = some (.command tag code args) ∧ allowsCode code k

section
variable {allow : EventKind → Prop} (s : State)

/-- An ACK (R138). -/
theorem State.takeAck_reach (n : Seq) (hl : allow .link) : Reach allow s (s.takeAck n) :=
  (s.dlvTakesLink_reach hl).trans ((State.delivers_takeAckNumber n _).reach hl)

/-- A NAK (R139). -/
theorem State.takeNak_reach (n : Seq) (hl : allow .link) : Reach allow s (s.takeNak n) :=
  (s.dlvTakesLink_reach hl).trans ((State.delivers_takeNakNumber n _).reach hl)

/-- What the block does that a body is handed to (R110). -/
theorem State.deliver_reach (b : Body) (hl : allow .link) (hr : allow .rise ∨ s.lctl.link ≠ .training) (hh : s.wires.handedOn = none)
    (hc : ∀ tag code args, b = .command tag code args → ∀ k, allowsCode code k → allow k) : Reach allow s (s.deliver b) := by
  cases b with
  | hello e => exact s.takeHello_reach hl e hr
  | ack n => exact s.takeAck_reach n hl
  | nak n => exact s.takeNak_reach n hl
  | command tag code args => exact s.intake_reach (hc tag code args rfl) hh

/-- The end of a handing on (R110). -/
theorem State.finishHanding_reach (hl : allow .link) (hr : allow .rise) (hs : s.cmd.reading ≠ none → allow .status)
    (hc : ∀ tag code args, s.wires.handedOn = some (.command tag code args) → ∀ k, allowsCode code k → allow k) :
    Reach allow s s.finishHanding := by
  have hreport : Reach (fun k => k = .link) s s.takeFrameReport := s.takeFrameReport_reach rfl
  have hreading : s.cmd.reading = none → s.takeFrameReport.cmd.reading = none :=
    hreport.keeps fun _ _ _ hk he => he.reading_none (by rw [hk]; exact nofun)
  have hhanded : s.takeFrameReport.wires.handedOn = s.wires.handedOn := by rw [State.takeFrameReport_eq]
  have hreport' : Reach allow s s.takeFrameReport := s.takeFrameReport_reach hl
  unfold State.finishHanding
  dsimp only
  rw [hhanded]
  cases hb : s.wires.handedOn with
  | none => exact hreport'.trans (State.takeUp_reach _ hl)
  | some b =>
    have hoff : Reach allow s.takeFrameReport s.takeFrameReport.handedOff := (Event.handedOff _).reach hl
    have hdelivered : Reach allow s (s.takeFrameReport.handedOff.deliver b) :=
      (hreport'.trans hoff).trans (State.deliver_reach _ b hl (.inl hr) rfl fun tag code args h => hc tag code args (by rw [hb, h]))
    refine (hdelivered.trans (State.ownersAnswer_reach _ fun hafter => ?_)).trans (State.takeUp_reach _ hl)
    by_cases hcommand : ∃ tag code args, b = .command tag code args
    · obtain ⟨tag, code, args, rfl⟩ := hcommand
      exact hc tag code args hb .status trivial
    · refine hs fun h => hafter ?_
      have hplain : Reach (· ≠ .getStatus) s.takeFrameReport.handedOff (s.takeFrameReport.handedOff.deliver b) :=
        State.deliver_reach _ b nofun (.inl nofun) rfl fun tag code args h => absurd ⟨tag, code, args, h⟩ hcommand
      exact hplain.keeps (fun _ _ _ hk he => he.reading_none hk) (hreading h)

/-- Once a handing on is finished, no body waits. -/
theorem State.finishHanding_handedOn : s.finishHanding.wires.handedOn = none := by
  have hkept {u v : State} (h : Reach (· ≠ .receive) u v) : u.wires.handedOn = none → v.wires.handedOn = none :=
    h.keeps fun _ _ _ hk he => he.handedOn_none hk
  unfold State.finishHanding
  dsimp only
  split
  · next b hb =>
    refine hkept ((State.deliver_reach _ b nofun (.inl nofun) rfl fun tag code args _ k hk => ?_).trans
      ((State.ownersAnswer_reach _ fun _ => nofun).trans (State.takeUp_reach _ nofun))) rfl
    rintro rfl
    exact hk
  · next hb => exact hkept (State.takeUp_reach _ nofun) hb

/-- A byte that meets the end of a handing on (R110, log 9). -/
theorem State.takeByteHandedOn_reach (b : Byte) (hk : ∀ k, s.byteAllows k → allow k) :
    Reach allow s (s.takeByteHandedOn b) := by
  have hl : allow .link := hk _ (.inl rfl)
  have hrise : allow .rise := hk _ (.inr (.inr (.inl rfl)))
  have hreceive : allow .receive := hk _ (.inr (.inl rfl))
  have hcommand (tag code : Byte) (args : List Byte) (h : s.wires.handedOn = some (.command tag code args)) (k : EventKind)
      (hc : allowsCode code k) : allow k := hk k (.inr (.inr (.inr (.inr ⟨tag, code, args, h, hc⟩))))
  have hstatus (h : s.cmd.reading ≠ none) : allow .status ∧ allow .path :=
    ⟨hk _ (.inr (.inr (.inr (.inl ⟨h, .inr rfl⟩)))), hk _ (.inr (.inr (.inr (.inl ⟨h, .inl rfl⟩))))⟩
  have hfinish (u : State) (hu : u.cmd = s.cmd) (hw : u.wires = s.wires) (link : Link)
      (hlink : u.finishHanding.lctl.link = .training → link = .training) :
      Reach allow u (u.finishHanding.takeByte link b) := by
    have hfinished : Reach allow u u.finishHanding :=
      u.finishHanding_reach hl hrise (fun h => (hstatus (hu ▸ h)).1) (hw ▸ hcommand)
    refine hfinished.trans (State.takeByte_reach _ hl b (fun hafter => ?_) hreceive hlink fun _ =>
      u.finishHanding_handedOn)
    by_cases hc : ∃ tag code args, s.wires.handedOn = some (.command tag code args)
    · obtain ⟨tag, code, args, hc⟩ := hc
      exact ⟨hcommand tag code args hc _ trivial, hcommand tag code args hc _ trivial⟩
    · refine hstatus fun h => hafter ?_
      have hplain : Reach (· ≠ .getStatus) u u.finishHanding :=
        u.finishHanding_reach nofun nofun (fun _ => nofun) fun tag code args h => absurd ⟨tag, code, args, hw ▸ h⟩ hc
      exact hplain.keeps (fun _ _ _ hk he => he.reading_none hk) (hu ▸ h)
  obtain ⟨-, h⟩ | ⟨-, ⟨-, h⟩ | ⟨-, h⟩⟩ := s.takeByteHandedOn_cases b <;> rw [h]
  · exact hfinish s rfl rfl _ id
  · exact (s.drawn_reach hl (Nat.le_succ _)).trans (hfinish (s.withChoices (s.choices + 1)) rfl rfl _ fun _ => rfl)
  · exact (s.drawn_reach hl (Nat.le_succ _)).trans (hfinish (s.withChoices (s.choices + 1)) rfl rfl _ id)

/-- DOWNLINK_BYTE (R108). -/
theorem State.downlinkByte_reach (b : Byte) (hk : ∀ k, s.byteAllows k → allow k) :
    Reach allow s (if s.lrx.endsBody b || s.lrx.settles b then s.takeByteHandedOn b else s.takeByte s.lctl.link b) := by
  refine Reach.ite (fun _ => s.takeByteHandedOn_reach b hk) fun hplain => ?_
  rw [Bool.or_eq_true, not_or] at hplain
  refine s.takeByte_reach (hk _ (.inl rfl)) b (fun h => ?_) (hk _ (.inr (.inl rfl))) id fun h => absurd h hplain.2
  exact ⟨hk _ (.inr (.inr (.inr (.inl ⟨h, .inr rfl⟩)))), hk _ (.inr (.inr (.inr (.inl ⟨h, .inl rfl⟩))))⟩

/-- A body taken by its block, once no other waits (R110). -/
theorem State.takeHanded_reach {b : Body} {act : State → State} (hl : allow .link)
    (hact : Reach allow s.handedOff (act s.handedOff)) : Reach allow s (s.takeHanded b act) := by
  obtain ⟨-, h⟩ | ⟨_, -, -, h⟩ := s.takeHanded_cases b act <;> rw [h]
  · exact ((Event.handedOff s).reach hl).trans hact
  · exact Reach.refl s

end

/-! ### Every command -/

/-- The kinds of events of a command. -/
def allows (i : Instr) (s : State) (k : EventKind) : Prop :=
  match i with
  | .coldReset _ => False
  | .tick _ => k = .path ∨ k = .link ∨ k = .status ∨ k = .clock ∨ k = .period
  | .requestTaken _ => k = .path ∨ k = .hit
  | .stallTimerExpiry | .idleCloseTimerExpiry | .downstreamResponse _ | .responseAccepted | .spaceFreedReport
  | .appendClaim _ => k = .path
  | .silenceTimerExpiry | .helloTimerExpiry | .ackTimerExpiry | .retryLimitReport | .ack _ | .nak _ | .frameBoundary
  | .sendEnd => k = .link
  | .recorderHello _ => k = .link ∨ k = .rise
  | .downlinkByte _ => s.byteAllows k
  | .getEntry .. => allowsCode 0x01 k
  | .setEntry .. => allowsCode 0x02 k
  | .clearTable .. => allowsCode 0x03 k
  | .getParam .. => allowsCode 0x04 k
  | .setParam .. => allowsCode 0x05 k
  | .getStatus .. => allowsCode 0x06 k
  | .clearAlerts .. => allowsCode 0x07 k
  | .flush .. => allowsCode 0x08 k
  | .mark .. => allowsCode 0x09 k
  | .freeze .. => allowsCode 0x0A k
  | .thaw .. => allowsCode 0x0B k
  | .restartJournal .. => allowsCode 0x0C k
  | .unknownCommandCode _ code _ => allowsCode code k

/-- A row of the recorder allows what its code allows. -/
theorem allows_of_fields {i : Instr} {tag code : Byte} {args : List Byte}
    (h : commandFields i = some (tag, code, args)) (s : State) : allows i s = allowsCode code := by
  cases i <;> simp only [commandFields, Option.some.injEq, Prod.mk.injEq, reduceCtorEq] at h <;>
    obtain ⟨rfl, rfl, rfl⟩ := h <;> rfl

section
variable (s : State)

/-- Every row of the recorder is made of the events of its code. -/
theorem exec_command_reach {i : Instr} {tag code : Byte} {args : List Byte}
    (h : commandFields i = some (tag, code, args)) : ∃ t, exec i s = nextOf t ∧ Reach (allows i s) s t := by
  refine ⟨_, exec_command h s, ?_⟩
  rw [allows_of_fields h]
  exact s.takeHanded_reach (act := fun u => u.intake tag code (runCode tag code args)) trivial
    (s.handedOff.intake_reach (fun _ hk => hk) rfl)

/-- The rows of the memory path and of the journal controller are made of the path's events. -/
theorem exec_path_reach {i : Instr} (h : isPathCommand i = true) : ∃ t, exec i s = nextOf t ∧ Reach (allows i s) s t := by
  cases i <;> simp only [isPathCommand, Bool.false_eq_true] at h
  case requestTaken r =>
    cases hs : s.path.state with
    | idle => exact ⟨s.takeRequest r, by simp [exec, execRequestTaken, hs], s.takeRequest_reach r hs (.inl rfl) (.inr rfl)⟩
    | waitSlot | preRead | claiming | hold => exact ⟨s, by simp [exec, execRequestTaken, hs], Reach.refl s⟩
  case downstreamResponse r => exact ⟨_, rfl, s.downstreamResponse_reach r rfl⟩
  case responseAccepted =>
    cases ht : s.path.tracking with
    | nil => exact ⟨s, by simp [exec, execResponseAccepted, ht], Reach.refl s⟩
    | cons it rest =>
      cases hph : it.phase with
      | waiting => exact ⟨s, by simp [exec, execResponseAccepted, ht, hph], Reach.refl s⟩
      | answering x =>
        exact ⟨s.acceptResponse rest, by simp [exec, execResponseAccepted, ht, hph], s.acceptResponse_reach ht hph rfl⟩
  case spaceFreedReport =>
    have hp : allows .spaceFreedReport s .path := rfl
    exact ⟨_, (apply_ite nextOf _ _ _).symm, Reach.ite (fun _ => Reach.refl s) fun _ =>
      (s.withFreed_reach _ hp).trans (State.repeatClaim_reach _ hp)⟩
  case stallTimerExpiry =>
    exact ⟨_, (apply_ite nextOf _ _ _).symm, Reach.ite (fun _ => s.stallExpired_reach rfl) fun _ => Reach.refl s⟩
  case idleCloseTimerExpiry =>
    exact ⟨_, (apply_ite nextOf _ _ _).symm, Reach.ite
      (fun _ => (Event.store s _ ((s.jctl.idleStopped_step).trans (Journal.closeOpen_step _ _))).reach rfl) fun _ => Reach.refl s⟩
  case appendClaim c =>
    have htaken (claim : Claim) (rest : List WaitingClaim) :
        Reach (allows (.appendClaim c) s) s ((s.withWires { s.wires with claims := rest }).claim claim).1 :=
      have hp : allows (.appendClaim c) s .path := rfl
      (s.withClaims_reach rest hp).trans (State.claim_reach _ claim hp)
    cases hw : takeWaiting c s.wires.claims with
    | some taken => exact ⟨_, by simp only [exec, execAppendClaim, hw], htaken taken.1 taken.2⟩
    | none =>
      cases c with
      | path => exact ⟨_, by simp only [exec, execAppendClaim, hw], s.answerClaim_reach rfl⟩
      | failed | marker | freezeUnit => exact ⟨s, by simp only [exec, execAppendClaim, hw], Reach.refl s⟩

/-- The rows of the record link and of delivery are made of the link's events. -/
theorem exec_link_reach {i : Instr} (h : isLinkCommand i s = true ∨ ∃ b, i = .downlinkByte b) :
    ∃ t, exec i s = nextOf t ∧ Reach (allows i s) s t := by
  cases i <;> simp only [isLinkCommand, Bool.false_eq_true, reduceCtorEq, exists_false, or_false, or_self] at h
  case downlinkByte b => exact ⟨_, rfl, s.downlinkByte_reach b fun _ hk => hk⟩
  case recorderHello e =>
    exact ⟨_, rfl, s.takeHanded_reach (.inl rfl) (s.handedOff.takeHello_reach (.inl rfl) e (.inl (.inr rfl)))⟩
  case ack n => exact ⟨_, rfl, s.takeHanded_reach rfl (s.handedOff.takeAck_reach n rfl)⟩
  case nak n => exact ⟨_, rfl, s.takeHanded_reach rfl (s.handedOff.takeNak_reach n rfl)⟩
  case ackTimerExpiry =>
    exact ⟨_, (apply_ite nextOf _ _ _).symm, Reach.ite (fun _ => s.ackExpired_reach rfl) fun _ => Reach.refl s⟩
  case silenceTimerExpiry =>
    exact ⟨_, (apply_ite nextOf _ _ _).symm, Reach.ite (fun _ => s.silenceExpired_reach rfl) fun _ => Reach.refl s⟩
  case helloTimerExpiry =>
    exact ⟨_, (apply_ite nextOf _ _ _).symm, Reach.ite (fun _ => s.helloExpired_reach rfl) fun _ => Reach.refl s⟩
  case retryLimitReport =>
    have hl : allows .retryLimitReport s .link := rfl
    exact ⟨_, (apply_ite nextOf _ _ _).symm, Reach.ite (fun _ => Reach.refl s) fun _ =>
      ((Event.reports s s.wires.sendEnd s.wires.sendReport s.wires.spaceFreed (s.wires.retryReports - 1)).reach hl).trans
        (State.retryLimitReached_reach _ hl)⟩
  case frameBoundary =>
    refine ⟨_, (apply_ite nextOf _ _ _).symm, Reach.ite (fun hb => s.chooseBody_reach rfl ?_) fun _ => Reach.refl s⟩
    simp only [LinkTransmitter.atBoundary, Bool.and_eq_true] at hb
    exact List.isEmpty_iff.1 hb.2
  case sendEnd =>
    have hl : allows .sendEnd s .link := rfl
    have hend : Reach (allows .sendEnd s) s (if s.wires.sendEnd || s.wires.sendReport then s.finishSendEnd
        else if s.ltx.byteDue && s.ltx.inJournal && s.ltx.allSent then s.endBody.finishSendEnd else s) :=
      Reach.ite (fun _ => s.finishSendEnd_reach hl) fun _ => Reach.ite
        (fun _ => (s.endBody_reach hl).trans (State.finishSendEnd_reach _ hl)) fun _ => Reach.refl s
    refine ⟨_, ?_, hend⟩
    rw [apply_ite nextOf, apply_ite nextOf]
    rfl

/-- Every command but COLD_RESET is made of events of its kinds, and a moment of a GET-STATUS follows (log 28). -/
theorem exec_reach {i : Instr} (hi : ∀ p, i ≠ .coldReset p) : ∃ t, exec i s = nextOf t ∧ Reach (allows i s) s t := by
  by_cases hpath : isPathCommand i = true
  · exact exec_path_reach s hpath
  by_cases hlink : isLinkCommand i s = true ∨ ∃ b, i = .downlinkByte b
  · exact exec_link_reach s hlink
  cases hfields : commandFields i with
  | some f => exact exec_command_reach s hfields
  | none =>
    cases i <;> simp only [commandFields, reduceCtorEq] at hfields
    case coldReset p => exact absurd rfl (hi p)
    case tick p =>
      exact ⟨_, rfl, s.tick_reach (.inl rfl) (.inr (.inl rfl)) (.inr (.inr (.inl rfl))) (.inr (.inr (.inr (.inl rfl))))
        (.inr (.inr (.inr (.inr rfl)))) p⟩
    case downlinkByte b => exact absurd (.inr ⟨b, rfl⟩) hlink
    all_goals simp [isPathCommand, isLinkCommand] at hpath hlink

/-- A command that ends in a state is made of events of its kinds and of those of a GET-STATUS being executed. -/
theorem exec_next_reach {i : Instr} {t : State} (hi : ∀ p, i ≠ .coldReset p) (h : exec i s = .next t) :
    Reach (fun k => allows i s k ∨ k = .status) s t := by
  obtain ⟨u, hu, hreach⟩ := exec_reach s hi
  rw [hu] at h
  cases h
  exact (hreach.mono fun _ => .inl).trans (u.ownersAnswer_reach fun _ => .inr rfl)

/-- A step is a cold reset or made of events, but for the queue. -/
theorem step_cases {t : State} (h : step s = .next t) :
    (∃ p pending n, t = ((State.afterReset p).withPending pending).withChoices n) ∨ ∃ rest, Reach (fun _ => True) (s.withPending rest) t := by
  unfold step at h
  split at h
  · next c rest hpending =>
    by_cases hc : ∃ p, c = .coldReset p
    · obtain ⟨p, rfl⟩ := hc
      cases h
      exact .inl ⟨p, _, _, rfl⟩
    · exact .inr ⟨rest, (exec_next_reach _ (fun p hp => hc ⟨p, hp⟩) h).mono fun _ _ => trivial⟩
  · cases h
    exact .inr ⟨s.pending, s.clkPeriod_reach trivial trivial trivial trivial trivial⟩

end

end Sys2Proof.Machine
end

section
/-! PROOFS. What every step keeps of the configuration (sections 1.1, 1.5 and 9.5), and that every command answers a state. -/

namespace Sys2Proof.Machine

/-! ### One step -/

/-- What every event keeps, and the state after cold reset has, is kept by a step. -/
theorem step_keeps {P : State → Prop} (hqueue : ∀ (s : State) rest, P s → P (s.withPending rest))
    (hreset : ∀ p pending n, P (((State.afterReset p).withPending pending).withChoices n))
    (hevent : ∀ {k} {s t : State}, Event k s t → P s → P t) {s t : State} (hs : P s) (h : step s = .next t) : P t := by
  obtain ⟨p, pending, n, rfl⟩ | ⟨rest, hreach⟩ := step_cases s h
  · exact hreset p pending n
  · exact hreach.keeps (fun _ _ _ _ he => hevent he) (hqueue s rest hs)

/-- What the return of each owner's counters to 0 keeps is kept when some of the owners clear theirs (R175). -/
theorem State.clearCounters_keeps (P : State → Prop) (of : Config.StatusOwner → Bool)
    (hjctl : ∀ u : State, P u → P (u.withJctl { u.jctl with recordsAppended := 0, recordsLost := 0, framesClosed := 0 }))
    (hltx : ∀ u : State, P u → P (u.withLtx { u.ltx with retransmitted := 0 }))
    (hpath : ∀ u : State, P u → P (u.withPath { u.path with
      writesRefused := 0, stallExpiries := 0, writeFailures := 0, unmatchedResponses := 0 }))
    (hcmd : ∀ u : State, P u → P (u.withCmd { u.cmd with commandsDiscarded := 0 }))
    (hlrx : ∀ u : State, P u → P (u.withLrx { u.lrx with discards := ⟨0, 0, 0, 0, 0, 0⟩ }))
    (hdlv : ∀ u : State, P u → P (u.withDlv { u.dlv with range := 0 })) {s : State} (hs : P s) : P (s.clearCounters of) := by
  have hown {Block : Type} (c : Bool) (set : State → Block → State) (own zero : State → Block)
      (hsame : ∀ u, set u (own u) = u) (hz : ∀ u, P u → P (set u (zero u))) (u : State) (hu : P u) :
      P (set u (if c then zero u else own u)) := by
    cases c
    · rw [if_neg (by simp), hsame]; exact hu
    · rw [if_pos rfl]; exact hz u hu
  have h1 := hown (of .jctl) State.withJctl State.jctl _ (fun _ => rfl) hjctl s hs
  have h2 := hown (of .ltx) State.withLtx State.ltx _ (fun _ => rfl) hltx _ h1
  have h3 := hown (of .path) State.withPath State.path _ (fun _ => rfl) hpath _ h2
  have h4 := hown (of .cmd) State.withCmd State.cmd _ (fun _ => rfl) hcmd _ h3
  have h5 := hown (of .lrx) State.withLrx State.lrx _ (fun _ => rfl) hlrx _ h4
  exact hown (of .dlv) State.withDlv State.dlv _ (fun _ => rfl) hdlv _ h5

/-! ### Parameters -/

/-- A new value of its range is the parameter's value. -/
theorem State.setParamValue_same {s : State} {p : Param} {v : Nat} (hne : p ≠ .settleCode) (hv : paramInRange p v = true) :
    (s.setParamValue p v).paramValue p = v := by
  simp only [paramInRange, Bool.and_eq_true, decide_eq_true_eq] at hv
  obtain ⟨-, hmost⟩ := hv
  cases p
  case settleCode => exact absurd rfl hne
  case marker pin =>
    have hget : PerMark.get (PerMark.set s.mrk.markers pin (BitVec.ofNat 3 v)) pin = BitVec.ofNat 3 v := by cases pin <;> rfl
    change (PerMark.get (PerMark.set s.mrk.markers pin (BitVec.ofNat 3 v)) pin).toNat = v
    rw [hget, BitVec.toNat_ofNat]
    exact Nat.mod_eq_of_lt (Nat.lt_succ_of_le hmost)
  case alertEnable =>
    change (BitVec.ofNat 6 v).toNat = v
    rw [BitVec.toNat_ofNat]
    exact Nat.mod_eq_of_lt (Nat.lt_succ_of_le hmost)
  all_goals rfl

/-- The other parameters keep theirs. -/
theorem State.setParamValue_other {s : State} {p q : Param} {v : Nat} (hne : q ≠ .settleCode) (hp : p ≠ q) :
    (s.setParamValue q v).paramValue p = s.paramValue p := by
  cases q
  case settleCode => exact absurd rfl hne
  case marker pin =>
    cases p
    case marker other =>
      have hpin : other ≠ pin := fun h => hp (h ▸ rfl)
      have hget : PerMark.get (PerMark.set s.mrk.markers pin (BitVec.ofNat 3 v)) other = PerMark.get s.mrk.markers other := by
        cases pin <;> cases other <;> simp [PerMark.get, PerMark.set] at hpin ⊢
      exact congrArg BitVec.toNat hget
    all_goals rfl
  all_goals
    cases p
    all_goals simp [State.setParamValue, State.paramValue] at hp ⊢

section
variable {k : EventKind} {s t : State} (he : Event k s t)
include he

/-- No event but SET-PARAM changes a parameter. -/
theorem Event.paramValue_kept (hk : k ≠ .setParam) (p : Param) : t.paramValue p = s.paramValue p := by
  have hdelivery {j : Journal} {d : Delivery} (h : DeliveryStep s.jctl s.dlv j d) :
      ((s.withJctl j).withDlv d).paramValue p = s.paramValue p := by
    obtain ⟨hrest, -, -, ⟨hwindow, htimeout, hlimit⟩, -⟩ := h
    have hframe : j.frameLimit = s.jctl.frameLimit := (congrArg Journal.frameLimit hrest :)
    have hidle : j.idleClose = s.jctl.idleClose := (congrArg Journal.idleClose hrest :)
    cases p
    case frameLimit => exact hframe
    case idleClose => exact hidle
    case sendWindow => exact hwindow
    case ackTimeout => exact htimeout
    case retryLimit => exact hlimit
    all_goals rfl
  cases he
  case paramSet | settleCodeSet => exact absurd rfl hk
  case path q _ _ _ hstep =>
    cases p
    case stallLimit => exact hstep.grows.limit
    all_goals rfl
  case store j hstep =>
    cases p
    case frameLimit => exact hstep.limit
    case idleClose => exact hstep.idle
    all_goals rfl
  case delivery hstep => exact hdelivery hstep
  case upTaken hstep _ => exact (show _ = _ from hdelivery hstep :)
  case receiver x hstep =>
    cases p
    case settleCode => exact hstep.code
    all_goals rfl
  case inputs m f hcode hmarkers _ _ _ =>
    cases p
    case filterCode => exact hcode
    case marker pin => exact congrArg (fun x => (PerMark.get x pin).toNat) hmarkers
    all_goals rfl
  case period =>
    cases p
    case tickShift =>
      change s.tbs.clkPeriod.tickShift = s.tbs.tickShift
      unfold Timebase.clkPeriod
      split <;> rfl
    all_goals rfl
  case cleared of _ _ =>
    exact s.clearCounters_keeps (fun u => u.paramValue p = s.paramValue p) of (fun _ h => h) (fun _ h => h) (fun _ h => h)
      (fun _ h => h) (fun _ h => h) (fun _ h => h) rfl
  all_goals rfl

/-- The shift and the codes in use are those of before, or the parameters held. -/
theorem Event.inUse_kept :
    (t.tbs.shiftInUse = s.tbs.shiftInUse ∨ t.tbs.shiftInUse = s.tbs.tickShift) ∧
    (t.mrk.codeInUse = s.mrk.codeInUse ∨ t.mrk.codeInUse = s.mrk.filterCode) ∧
    (t.frzu.codeInUse = s.frzu.codeInUse ∨ t.frzu.codeInUse = s.frzu.filterCode) := by
  cases he
  case tick => exact ⟨.inr rfl, .inl rfl, .inl rfl⟩
  case inputs _ _ _ hmrk _ hfrz => exact ⟨.inl rfl, hmrk, hfrz⟩
  case period =>
    refine ⟨.inl ?_, .inl rfl, .inl rfl⟩
    change s.tbs.clkPeriod.shiftInUse = s.tbs.shiftInUse
    unfold Timebase.clkPeriod
    split <;> rfl
  case paramSet p _ _ hne =>
    cases p
    case settleCode => exact absurd rfl hne
    all_goals exact ⟨.inl rfl, .inl rfl, .inl rfl⟩
  all_goals exact ⟨.inl rfl, .inl rfl, .inl rfl⟩

/-- Both units hold the one FILTER-CODE. -/
theorem Event.filterCodes_kept (h : s.frzu.filterCode = s.mrk.filterCode) : t.frzu.filterCode = t.mrk.filterCode := by
  cases he
  case inputs hmrk _ _ hfrz _ => exact hfrz.trans (h.trans hmrk.symm)
  case paramSet p _ _ hne =>
    cases p
    case settleCode => exact absurd rfl hne
    case filterCode => rfl
    all_goals exact h
  all_goals exact h

/-- A parameter holds its value of before, or a value of its range. -/
theorem Event.paramValue_cases (p : Param) :
    t.paramValue p = s.paramValue p ∨ paramInRange p (t.paramValue p) = true := by
  by_cases hk : k = .setParam
  case neg => exact .inl (he.paramValue_kept hk p)
  subst hk
  cases he
  case settleCodeSet v hv _ =>
    cases p
    case settleCode => exact .inr (by simp [paramInRange, paramLeast, paramGreatest, State.paramValue, hv])
    all_goals exact .inl rfl
  case paramSet q v hv hne =>
    by_cases hp : p = q
    · subst hp
      rw [State.setParamValue_same hne hv]
      exact .inr hv
    · exact .inl (State.setParamValue_other hne hp)

end

/-- Settles O2: a command is COLD_RESET or made of events, and no event touches the queue. -/
theorem everyCommandCompletes : Obligations.EveryCommandCompletes := by
  intro i s
  by_cases hi : ∃ p, i = .coldReset p
  · obtain ⟨p, rfl⟩ := hi
    exact ⟨_, rfl, rfl⟩
  obtain ⟨u, hu, hreach⟩ := exec_reach s fun p hp => hi ⟨p, hp⟩
  have hqueue {k : EventKind} {s t : State} (he : Event k s t) : t.pending = s.pending := by
    cases he
    case paramSet p _ _ hne =>
      cases p
      case settleCode => exact absurd rfl hne
      all_goals rfl
    all_goals rfl
  refine ⟨_, hu, ?_⟩
  exact (exec_next_reach s (fun p hp => hi ⟨p, hp⟩) hu).keeps
    (P := fun t => t.pending = s.pending) (fun _ _ _ _ he h => (hqueue he).trans h) rfl

/-- The ranges of Table 9-5, of the parameters, of the shift and of the codes in use. -/
theorem State.paramsInRange_iff (s : State) : s.paramsInRange ↔
    (∀ p, paramInRange p (s.paramValue p) = true) ∧ s.tbs.shiftInUse ≤ 15 ∧ s.mrk.codeInUse ≤ 7 ∧
    s.frzu.codeInUse ≤ 7 ∧ s.frzu.filterCode = s.mrk.filterCode := by
  simp only [paramInRange, Bool.and_eq_true, decide_eq_true_eq]
  constructor
  · rintro ⟨hlimit, hidle, ⟨hshift, hin⟩, hwindow, htimeout, hretry, hstall, hsettle, hhello, hsilence, hcode, hmrk, hsame, hfrz⟩
    refine ⟨fun p => ?_, hin, hmrk, hfrz, hsame⟩
    cases p
    case frameLimit => exact hlimit
    case idleClose => exact ⟨Nat.zero_le _, hidle⟩
    case tickShift => exact ⟨Nat.zero_le _, hshift⟩
    case sendWindow => exact hwindow
    case ackTimeout => exact htimeout
    case retryLimit => exact hretry
    case stallLimit => exact hstall
    case settleCode => exact ⟨Nat.zero_le _, hsettle⟩
    case helloInterval => exact hhello
    case silenceLimit => exact hsilence
    case filterCode => exact ⟨Nat.zero_le _, hcode⟩
    case marker pin => exact ⟨Nat.zero_le _, Nat.le_of_lt_succ (s.mrk.markers.get pin).isLt⟩
    case alertEnable => exact ⟨Nat.zero_le _, Nat.le_of_lt_succ s.alr.enable.isLt⟩
  · rintro ⟨h, hin, hmrk, hfrz, hsame⟩
    exact ⟨h .frameLimit, (h .idleClose).2, ⟨(h .tickShift).2, hin⟩, h .sendWindow, h .ackTimeout, h .retryLimit, h .stallLimit,
      (h .settleCode).2, h .helloInterval, h .silenceLimit, (h .filterCode).2, hmrk, hsame, hfrz⟩

/-- Every event keeps the parameters in their ranges. -/
theorem Event.paramsInRange_kept {k : EventKind} {s t : State} (he : Event k s t) (h : s.paramsInRange) : t.paramsInRange := by
  obtain ⟨hparams, hin, hmrk, hfrz, hsame⟩ := s.paramsInRange_iff.1 h
  have hrange (p : Param) : paramLeast p ≤ s.paramValue p ∧ s.paramValue p ≤ paramGreatest p := by
    simpa [paramInRange] using hparams p
  obtain ⟨hshift', hmrk', hfrz'⟩ := he.inUse_kept
  refine t.paramsInRange_iff.2 ⟨fun p => ?_, ?_, ?_, ?_, he.filterCodes_kept hsame⟩
  · obtain hp | hp := he.paramValue_cases p
    · rw [hp]; exact hparams p
    · exact hp
  · obtain h | h := hshift' <;> rw [h]
    · exact hin
    · exact (hrange .tickShift).2
  · obtain h | h := hmrk' <;> rw [h]
    · exact hmrk
    · exact (hrange .filterCode).2
  · obtain h | h := hfrz' <;> rw [h]
    · exact hfrz
    · rw [hsame]; exact (hrange .filterCode).2

/-! ### The watch table -/

/-- No entry's fields but those put in. -/
theorem WatchTable.forall_put {Q : WatchEntry → Prop} {t : WatchTable} (h : ∀ e ∈ t.entries.toList, Q e) (index : Nat)
    {e : WatchEntry} (he : Q e) : ∀ x ∈ (t.put index e).entries.toList, Q x := by
  intro x hx
  simp only [WatchTable.put, Vector.toList_setIfInBounds] at hx
  obtain hx | rfl := List.mem_or_eq_of_mem_set hx
  · exact h x hx
  · exact he

/-- Every event keeps the windows aligned and not empty. -/
theorem Event.windowsSound_kept {k : EventKind} {s t : State} (he : Event k s t) (h : s.windowsSound) : t.windowsSound := by
  cases he
  case hit e index hmem =>
    exact WatchTable.forall_put (Q := fun e => rangeGood e.base e.limit = true) h index
      (h e (by simpa using (Vector.mem_of_getElem? hmem)))
  case entrySet args =>
    obtain ⟨-, hs⟩ | ⟨-, -, hs⟩ | ⟨-, hgood, ⟨-, hs⟩ | ⟨e, he, hs⟩⟩ := s.wtab.setEntry_cases args
    · rw [hs]; exact h
    · rw [hs]; exact h
    · rw [hs]; exact h
    · rw [hs]
      obtain ⟨-, hbase, hlimit, -⟩ := (entryOfArgs_eq_some_iff args e).1 he
      rw [hbase, hlimit] at hgood
      exact WatchTable.forall_put (Q := fun e => rangeGood e.base e.limit = true) h _ hgood
  case tableCleared =>
    intro e he
    simp only [WatchTable.clear, Vector.toList_map, List.mem_map] at he
    obtain ⟨f, hf, rfl⟩ := he
    exact h f hf
  case paramSet p _ _ hne =>
    cases p
    case settleCode => exact absurd rfl hne
    all_goals exact h
  all_goals exact h

/-- Settles O8: event by event. -/
theorem configurationStaysInRange : Obligations.ConfigurationStaysInRange := by
  intro s t h
  exact ⟨fun hs => step_keeps (fun _ _ hs => hs) (fun p _ _ => (State.afterReset_sound p).params)
      (fun he => he.paramsInRange_kept) hs h,
    fun hs => step_keeps (fun _ _ hs => hs) (fun p _ _ => (State.afterReset_sound p).windows)
      (fun he => he.windowsSound_kept) hs h⟩

end Sys2Proof.Machine
end

section
/-! PROOFS. The frame list at every step (section 4.1). -/

namespace Sys2Proof.Machine

/-! ### Frames that start -/

/-- Behind SENT frames the order is that of the rest. -/
theorem statesInOrder_sent_append {before l : List Frame} (h : ∀ g ∈ before, g.state = .sent) :
    statesInOrder (before ++ l) ↔ statesInOrder l := by
  induction before with
  | nil => rfl
  | cons g before ih =>
    have hg : g.state = .sent := h g List.mem_cons_self
    simp only [List.cons_append, statesInOrder, hg]
    exact ih fun x hx => h x (List.mem_cons_of_mem g hx)

/-- What is taken is the oldest CLOSED frame. -/
theorem takeOldestClosed_some {l frames : List Frame} {f : Frame} (h : takeOldestClosed l = some (f, frames)) :
    ∃ before after, l = before ++ f :: after ∧ (∀ g ∈ before, g.state ≠ .closed) ∧ f.state = .closed ∧
      frames = before ++ { f with state := .sending } :: after := by
  induction l generalizing frames with
  | nil => exact absurd h nofun
  | cons x l ih =>
    simp only [takeOldestClosed] at h
    split at h
    · next hx =>
      cases h
      exact ⟨[], l, rfl, nofun, hx, rfl⟩
    · next hx =>
      split at h
      · next g gs hrest =>
        cases h
        obtain ⟨before, after, rfl, hbefore, hf, rfl⟩ := ih hrest
        refine ⟨x :: before, after, rfl, fun g hg => ?_, hf, rfl⟩
        obtain rfl | hg := List.mem_cons.1 hg
        · exact hx
        · exact hbefore g hg
      · exact absurd h nofun

section
variable {s : State} {f : Frame} {frames : List Frame}

/-- The frames that go out one after another, as the oldest CLOSED one starts. -/
theorem State.sending_split (hw : s.windowOpen = true) (h : takeOldestClosed s.jctl.frames = some (f, frames)) :
    ∃ before after, s.jctl.frames = before ++ f :: after ∧ (∀ g ∈ before, g.state = .sent) ∧ f.state = .closed ∧
      frames = before ++ { f with state := .sending } :: after := by
  obtain ⟨before, after, hl, hbefore, hf, rfl⟩ := takeOldestClosed_some h
  obtain ⟨-, hsending, -⟩ := s.windowOpen_iff.1 hw
  refine ⟨before, after, hl, fun g hg => ?_, hf, rfl⟩
  have hne : g.state ≠ .sending := hsending g (by rw [hl]; exact List.mem_append_left _ hg)
  cases hs : g.state
  · exact absurd hs (hbefore g hg)
  · exact absurd hs hne
  · rfl

/-- The frame list stays sound as a frame starts. -/
theorem State.sending_sound (hw : s.windowOpen = true) (h : takeOldestClosed s.jctl.frames = some (f, frames))
    (hs : s.jctl.sound) (hr : s.jctl.onlyOldestRetried) :
    ({ s.jctl with frames := frames } : Journal).sound ∧ ({ s.jctl with frames := frames } : Journal).onlyOldestRetried := by
  obtain ⟨before, after, hl, hbefore, hf, rfl⟩ := State.sending_split hw h
  have hcounts : (before ++ { f with state := .sending } :: after).map (·.retryCount) = s.jctl.frames.map (·.retryCount) := by
    simp [hl]
  have hsame {Q : Nat → Prop} {l m : List Frame} (he : l.map (·.retryCount) = m.map (·.retryCount))
      (hm : ∀ g ∈ m, Q g.retryCount) : ∀ g ∈ l, Q g.retryCount := by
    intro g hg
    have hmem : g.retryCount ∈ m.map (·.retryCount) := he ▸ List.mem_map_of_mem hg
    obtain ⟨x, hx, he⟩ := List.mem_map.1 hmem
    exact he ▸ hm x hx
  obtain ⟨-, -, -, horder, hframes, -, -⟩ := id hs
  refine Journal.sound_withFrames hs ?_ ?_ (hsame (Q := (· ≤ 15)) hcounts fun g hg => ?_)
    (hsame (Q := (· = 0)) ?_ hr)
  · rw [hl]
    simp [Frame.contents]
  case refine_3 =>
    obtain ⟨-, -, hretry⟩ := hframes g hg
    exact hretry
  · rw [hl, statesInOrder_sent_append hbefore] at horder
    rw [statesInOrder_sent_append hbefore]
    simp only [statesInOrder, hf] at horder ⊢
    exact horder
  · rw [List.map_drop, hcounts, List.map_drop]

end

/-! ### Every step -/

/-- A tick ages the OPEN frame and leaves the rest of the frame list alone. -/
theorem State.tickCounters_journal {s : State} (h : s.jctl.sound) : s.tickCounters.jctl.sound := by
  obtain ⟨hheld, hused, hseqs, horder, hframes, hopen, hidle⟩ := h
  change ({ s.jctl with idleTimer := tickTimer s.jctl.idleTimer, openFrame := s.jctl.openFrame.map ageFrame } : Journal).sound
  cases ho : s.jctl.openFrame with
  | none =>
    simp only [Journal.framesHeld, Journal.storeUsed, Journal.heldSeqs, ho] at hheld hused hseqs hopen hidle
    exact ⟨hheld, hused, hseqs, horder, hframes, nofun, fun _ => by simp [hidle, tickTimer]⟩
  | some f =>
    simp only [Journal.framesHeld, Journal.storeUsed, Journal.heldSeqs, ho] at hheld hused hseqs hopen
    obtain ⟨hrecords, hbytes, -⟩ := hopen f rfl
    refine ⟨hheld, hused, hseqs, horder, hframes, ?_, nofun⟩
    rintro g ⟨⟩
    exact ⟨hrecords, hbytes, Nat.min_le_right _ _⟩

/-- Every event keeps the frame list sound, with the parameters in their ranges. -/
theorem Event.journal_kept {k : EventKind} {s t : State} (he : Event k s t) (hp : s.paramsInRange)
    (h : s.jctl.sound ∧ s.jctl.onlyOldestRetried) : t.jctl.sound ∧ t.jctl.onlyOldestRetried := by
  obtain ⟨hsound, honly⟩ := h
  cases he
  case store j hstep =>
    obtain ⟨⟨hleast, hmost⟩, -⟩ := hp
    obtain ⟨new, hframes, hnew⟩ := hstep.added
    refine ⟨hstep.sound hleast hmost hsound, fun f hf => ?_⟩
    dsimp only at hf
    rw [hframes, List.drop_append] at hf
    obtain hf | hf := List.mem_append.1 hf
    · exact honly f hf
    · exact (hnew f (List.mem_of_mem_drop hf)).2
  case delivery hstep => exact hstep.sound hsound honly
  case upTaken hstep _ => exact hstep.sound hsound honly
  case sending f frames _ hw hf => exact State.sending_sound hw hf hsound honly
  case risen =>
    obtain ⟨-, -, -, horder, hframes, -, -⟩ := id hsound
    refine Journal.sound_withFrames hsound ?_ (statesInOrder_congr ?_ horder) (fun g hg => ?_) fun g hg => ?_
    · rw [List.map_map]
      exact List.suffix_rfl
    · rw [List.map_map]
      rfl
    · obtain ⟨f, -, rfl⟩ := List.mem_map.1 hg
      exact Nat.zero_le _
    · obtain ⟨f, -, rfl⟩ := List.mem_map.1 (List.mem_of_mem_drop hg)
      rfl
  case dlvDown => exact (DeliveryStep.returned s.jctl s.dlv).sound hsound honly
  case cleared of _ _ =>
    exact s.clearCounters_keeps (fun u => u.jctl.sound ∧ u.jctl.onlyOldestRetried) of (fun _ h => h) (fun _ h => h) (fun _ h => h)
      (fun _ h => h) (fun _ h => h) (fun _ h => h) ⟨hsound, honly⟩
  case tick =>
    refine ⟨?_, honly⟩
    exact State.tickCounters_journal hsound
  case restarted => exact ⟨⟨Nat.zero_le _, Nat.zero_le _, trivial, trivial, nofun, nofun, fun _ => rfl⟩, nofun⟩
  case paramSet p _ _ hne =>
    cases p
    case settleCode => exact absurd rfl hne
    all_goals exact ⟨hsound, honly⟩
  all_goals exact ⟨hsound, honly⟩

/-- Settles O9: event by event. -/
theorem journalStaysSound : Obligations.JournalStaysSound := by
  intro s t hp hs hr h
  have hkept := step_keeps (P := fun u => u.paramsInRange ∧ u.jctl.sound ∧ u.jctl.onlyOldestRetried) (fun _ _ h => h)
    (fun p _ _ => ⟨(State.afterReset_sound p).params, (State.afterReset_sound p).journal, (State.afterReset_sound p).retried⟩)
    (fun he h => ⟨he.paramsInRange_kept h.1, he.journal_kept h.1 h.2⟩) ⟨hp, hs, hr⟩ h
  exact hkept.2

end Sys2Proof.Machine
end

section
/-! PROOFS. Frames out, the acknowledgment timer, the reply queue and the changes of the link state at every step (chapters 7, 8
and 9). -/

namespace Sys2Proof.Machine

/-! ### Changes of the link state that wait -/

/-- Every event keeps what waits of a change of the link state in agreement with the link state. -/
theorem Event.entrySound_kept {k : EventKind} {s t : State} (he : Event k s t) (h : s.entrySound) : t.entrySound := by
  obtain ⟨hfall, horder, hup, hreading, hhello⟩ := h
  cases he
  case handedOff => exact ⟨hfall, horder, hup, hreading, fun _ => nofun⟩
  case handedOn b hb =>
    refine ⟨hfall, horder, hup, hreading, fun hl => ?_⟩
    rintro c ⟨⟩
    exact hb hl
  case risen hl => exact ⟨fun h => absurd (hl.symm.trans (hfall h)) nofun, horder, fun _ => rfl, fun _ => nofun, nofun⟩
  case upGiven e hl => exact ⟨hfall, horder, fun _ => hl, hreading, hhello⟩
  case upTaken => exact ⟨hfall, horder, fun h => absurd rfl h, hreading, hhello⟩
  case fallen hup' => exact ⟨fun _ => rfl, fun _ => rfl, fun h => absurd hup' h, fun _ => nofun, nofun⟩
  case lrxDown hf => exact ⟨fun _ => hfall fun hn => by simp [hn, FallMarks.none] at hf, horder, hup, hreading, hhello⟩
  case ltxDown hf _ => exact ⟨fun _ => hfall fun hn => by simp [hn, FallMarks.none] at hf, nofun, hup, hreading, hhello⟩
  case dlvDown hf hltx =>
    exact ⟨fun _ => hfall fun hn => by simp [hn, FallMarks.none] at hf, fun h => absurd (hltx.symm.trans h) nofun, hup,
      hreading, hhello⟩
  case cmdDown hf => exact ⟨fun _ => hfall fun hn => by simp [hn, FallMarks.none] at hf, horder, hup, hreading, hhello⟩
  case alrDown hf => exact ⟨fun _ => hfall fun hn => by simp [hn, FallMarks.none] at hf, horder, hup, hreading, hhello⟩
  case trained n hl hnone hr hh _ _ =>
    exact ⟨fun h => absurd hnone h, horder, fun h => absurd (hl.symm.trans (hup h)) nofun, fun h => absurd hr h,
      fun _ b hb => absurd (hh.symm.trans hb) nofun⟩
  case readOn hr _ => exact ⟨hfall, horder, hup, fun _ => hreading (by rw [hr]; exact nofun), hhello⟩
  case statusReplied => exact ⟨hfall, horder, hup, fun h => absurd rfl h, hhello⟩
  case replied => exact ⟨hfall, horder, hup, fun h => absurd rfl h, hhello⟩
  case begun hon =>
    refine ⟨hfall, horder, hup, fun _ => ?_, hhello⟩
    obtain hl | hf := hon
    · dsimp only
      rw [hl]
      exact nofun
    · have hl : s.lctl.link = .down := hfall fun hn => by simp [hn, FallMarks.none] at hf
      dsimp only
      rw [hl]
      exact nofun
  case cleared of _ _ =>
    exact s.clearCounters_keeps State.entrySound of (fun _ h => h) (fun _ h => h) (fun _ h => h)
      (fun _ h => h) (fun _ h => h) (fun _ h => h) ⟨hfall, horder, hup, hreading, hhello⟩
  case paramSet p _ _ hne =>
    cases p
    case settleCode => exact absurd rfl hne
    all_goals exact ⟨hfall, horder, hup, hreading, hhello⟩
  all_goals exact ⟨hfall, horder, hup, hreading, hhello⟩

/-! ### Delivery -/

/-- Only as many frames are out, and as many SENT, as their states say. -/
theorem Journal.counts_congr {j k : Journal} (h : k.frames.map (·.state) = j.frames.map (·.state)) :
    k.framesOut = j.framesOut ∧ k.framesSent = j.framesSent := by
  have hcount (l : List Frame) (q : FrameState → Bool) : l.countP (fun f => q f.state) = (l.map (·.state)).countP q := by
    rw [List.countP_map]
    rfl
  simp only [Journal.framesOut, Journal.framesSent]
  rw [hcount k.frames (fun x => decide (x ≠ .closed)), hcount k.frames (fun x => decide (x = .sent)), h,
    ← hcount j.frames (fun x => decide (x ≠ .closed)), ← hcount j.frames (fun x => decide (x = .sent))]
  exact ⟨rfl, rfl⟩

/-- New frames are CLOSED. -/
theorem StoreStep.counts {j k : Journal} (h : StoreStep j k) : k.framesOut = j.framesOut ∧ k.framesSent = j.framesSent := by
  obtain ⟨new, hframes, hnew⟩ := h.added
  have hzero (q : Frame → Bool) (hq : ∀ f, f.state = .closed → q f = false) : new.countP q = 0 :=
    List.countP_eq_zero.2 fun f hf => by rw [hq f (hnew f hf).1]; exact nofun
  simp only [Journal.framesOut, Journal.framesSent, hframes, List.countP_append]
  rw [hzero _ fun f hf => by simp [hf], hzero _ fun f hf => by simp [hf]]
  exact ⟨rfl, rfl⟩

/-- One frame more is out when one starts, and as many are SENT. -/
theorem State.sending_counts {s : State} {f : Frame} {frames : List Frame} (hw : s.windowOpen = true)
    (h : takeOldestClosed s.jctl.frames = some (f, frames)) :
    ({ s.jctl with frames := frames } : Journal).framesOut = s.jctl.framesOut + 1 ∧
    ({ s.jctl with frames := frames } : Journal).framesSent = s.jctl.framesSent := by
  obtain ⟨before, after, hl, -, hf, rfl⟩ := State.sending_split hw h
  simp only [Journal.framesOut, Journal.framesSent, hl, List.countP_append, List.countP_cons, hf]
  constructor
  · simp
    omega
  · simp

/-- Every event keeps the delivery controller sound, with the parameters in their ranges. -/
theorem Event.delivery_kept {k : EventKind} {s t : State} (he : Event k s t) (hp : s.paramsInRange) (h : s.deliverySound) :
    t.deliverySound := by
  obtain ⟨hout, htimer⟩ := h
  cases he
  case store j hstep =>
    obtain ⟨hsame, hsent⟩ := hstep.counts
    exact ⟨hsame ▸ hout, hsent ▸ htimer⟩
  case delivery hstep => exact ⟨Nat.le_trans hstep.out hout, hstep.timer htimer⟩
  case upTaken hstep _ => exact ⟨Nat.le_trans hstep.out hout, hstep.timer htimer⟩
  case sending f frames _ hw hf =>
    obtain ⟨-, -, -, ⟨-, hwindow⟩, -⟩ := hp
    obtain ⟨-, -, hroom⟩ := s.windowOpen_iff.1 hw
    obtain ⟨hone, hsent⟩ := State.sending_counts hw hf
    refine ⟨hone.le.trans ?_, hsent ▸ htimer⟩
    omega
  case risen =>
    obtain ⟨hsame, hsent⟩ := Journal.counts_congr (j := s.jctl) (k := { s.jctl with frames := s.jctl.frames.map freshFrame })
      (by rw [List.map_map]; rfl)
    exact ⟨hsame ▸ hout, hsent ▸ htimer⟩
  case dlvDown =>
    exact ⟨Nat.le_trans (DeliveryStep.returned s.jctl s.dlv).out hout, fun h => absurd rfl h⟩
  case tick => exact ⟨hout, fun h => htimer fun hn => h (by simp [State.tickCounters, hn, tickTimer])⟩
  case restarted => exact ⟨Nat.zero_le _, fun h => absurd rfl h⟩
  case cleared of _ _ =>
    exact s.clearCounters_keeps State.deliverySound of (fun _ h => h) (fun _ h => h) (fun _ h => h)
      (fun _ h => h) (fun _ h => h) (fun _ h => h) ⟨hout, htimer⟩
  case paramSet p _ _ hne =>
    cases p
    case settleCode => exact absurd rfl hne
    all_goals exact ⟨hout, htimer⟩
  all_goals exact ⟨hout, htimer⟩

/-! ### The command unit -/

/-- Every event keeps the reply queue and the execution state sound. -/
theorem Event.commands_kept {k : EventKind} {s t : State} (he : Event k s t) (h : s.commandsSound) : t.commandsSound := by
  obtain ⟨hqueue, hstate⟩ := id h
  have hshorter {replies : List Reply} (hle : replies.length ≤ s.cmd.replies.length) :
      (s.withCmd { s.cmd with replies := replies }).commandsSound := by
    refine ⟨Nat.le_trans hle hqueue, ?_⟩
    simp only [State.withCmd_fields]
    cases hr : s.cmd.reading with
    | none => simp only [hr] at hstate; exact hstate
    | some r =>
      simp only [hr] at hstate
      obtain ⟨hexec, hroom, hrest⟩ := hstate
      exact ⟨hexec, Nat.le_trans hle hroom, hrest⟩
  have hqueued (hroom : s.cmd.replies.length ≤ 3) (r : Reply) :
      (if s.offLine then s.cmd.replies else s.cmd.replies ++ [r]).length ≤ 4 := by
    split
    · exact hqueue
    · simp only [List.length_append, List.length_singleton]
      omega
  cases he
  case replyStarted r rest hr => exact hshorter (by rw [hr, List.length_cons]; omega)
  case fallen =>
    exact hshorter (replies := if s.lctl.link = .up then s.cmd.replies else []) (by split <;> simp)
  case cmdDown => exact hshorter (Nat.zero_le _)
  case readOn r q n hclear hcomplete hperiods hr hn =>
    simp only [hr] at hstate
    obtain ⟨hexec, hroom, hless, hopen⟩ := hstate
    refine ⟨hqueue, hexec, hroom, ?_, hcomplete hopen⟩
    obtain h | h := hperiods
    · exact h ▸ hless
    · exact h
  case statusReplied r reply n hr _ =>
    simp only [hr] at hstate
    obtain ⟨-, hroom, -⟩ := hstate
    exact ⟨hqueued hroom reply, rfl⟩
  case begun r hcomplete hperiods hr hroom hon =>
    have hle : s.cmd.replies.length ≤ 3 := Nat.le_of_lt_succ hroom
    exact ⟨hqueue, rfl, hle, by rw [hperiods]; decide, hcomplete⟩
  case replied r hr hroom => exact ⟨hqueued (Nat.le_of_lt_succ hroom) r, rfl⟩
  case requeued r hr hroom =>
    simp only [hr] at hstate
    refine ⟨hqueued (Nat.le_of_lt_succ hroom) r, ?_⟩
    simp only [hr]
    exact hstate
  case cleared of _ _ =>
    exact s.clearCounters_keeps State.commandsSound of (fun _ h => h) (fun _ h => h) (fun _ h => h)
      (fun _ h => h) (fun _ h => h) (fun _ h => h) h
  case paramSet p _ _ hne =>
    cases p
    case settleCode => exact absurd rfl hne
    all_goals exact h
  all_goals exact h

/-! ### While the link is not UP -/

/-- Every event keeps the part quiet while the link is not UP. -/
theorem Event.quiet_kept {k : EventKind} {s t : State} (he : Event k s t) (hentry : s.entrySound) (h : s.quietUnlessUp) :
    t.quietUnlessUp := by
  have hfrom {Q : Prop} (hl : s.lctl.link = .up) (hl' : s.lctl.link ≠ .up) : Q := absurd hl hl'
  obtain ⟨-, -, hup, -⟩ := hentry
  have hqueued (r : Reply) (hl : s.lctl.link ≠ .up) (hf : s.wires.falling.cmd = false) :
      (if s.offLine then s.cmd.replies else s.cmd.replies ++ [r]) = [] := by
    rw [if_pos ((s.offLine_iff).2 ⟨hl, hf⟩)]
    exact (h hl).2 hf
  cases he
  case store j hstep =>
    intro hl
    obtain ⟨hdlv, hcmd⟩ := h hl
    refine ⟨fun hf => ?_, hcmd⟩
    obtain ⟨hout, hrest⟩ := hdlv hf
    exact ⟨hstep.counts.1.trans hout, hrest⟩
  case delivery hstep =>
    intro hl
    obtain ⟨hdlv, hcmd⟩ := h hl
    refine ⟨fun hf => ?_, hcmd⟩
    obtain ⟨hout, hopen, htimer⟩ := hdlv hf
    exact ⟨Nat.le_zero.1 (hout ▸ hstep.out), hstep.quiet hout hopen htimer⟩
  case sending hl _ _ => exact hfrom hl
  case replyStarted r rest hr =>
    intro hl
    obtain ⟨hdlv, hcmd⟩ := h hl
    exact ⟨hdlv, fun hf => absurd (hr.symm.trans (hcmd hf)) nofun⟩
  case upTaken hu _ _ => exact hfrom (hup hu)
  case risen => exact fun hl => absurd rfl hl
  case fallen hl _ =>
    intro _
    refine ⟨nofun, fun hf => ?_⟩
    exact if_neg (of_decide_eq_false hf)
  case dlvDown =>
    intro hl
    obtain ⟨-, hcmd⟩ := h hl
    refine ⟨fun _ => ⟨(Journal.framesOut_eq_zero_iff _).2 fun f hf => ?_, rfl, rfl⟩, hcmd⟩
    obtain ⟨g, -, rfl⟩ := List.mem_map.1 hf
    rfl
  case cmdDown =>
    intro hl
    obtain ⟨hdlv, -⟩ := h hl
    exact ⟨hdlv, fun _ => rfl⟩
  case trained n hl _ _ _ _ _ =>
    intro _
    exact h (by rw [hl]; exact nofun)
  case statusReplied r reply n _ _ =>
    intro hl
    obtain ⟨hdlv, -⟩ := h hl
    exact ⟨hdlv, hqueued reply hl⟩
  case replied r _ _ =>
    intro hl
    obtain ⟨hdlv, -⟩ := h hl
    exact ⟨hdlv, hqueued r hl⟩
  case requeued r _ _ =>
    intro hl
    obtain ⟨hdlv, -⟩ := h hl
    exact ⟨hdlv, hqueued r hl⟩
  case tick =>
    intro hl
    obtain ⟨hdlv, hcmd⟩ := h hl
    refine ⟨fun hf => ?_, hcmd⟩
    obtain ⟨hout, hopen, htimer⟩ := hdlv hf
    exact ⟨hout, hopen, by simp [State.tickCounters, htimer, tickTimer]⟩
  case restarted =>
    intro hl
    obtain ⟨hdlv, hcmd⟩ := h hl
    refine ⟨fun hf => ?_, hcmd⟩
    obtain ⟨-, hopen, -⟩ := hdlv hf
    exact ⟨rfl, hopen, rfl⟩
  case cleared of _ _ =>
    exact s.clearCounters_keeps State.quietUnlessUp of (fun _ h => h) (fun _ h => h) (fun _ h => h)
      (fun _ h => h) (fun _ h => h) (fun _ h => h) h
  case paramSet p _ _ hne =>
    cases p
    case settleCode => exact absurd rfl hne
    all_goals exact h
  all_goals exact h

/-- What the statement on delivery assumes, together. -/
structure State.DeliveryReady (s : State) : Prop where
  params   : s.paramsInRange
  entry    : s.entrySound
  quiet    : s.quietUnlessUp
  delivery : s.deliverySound
  commands : s.commandsSound

/-- Settles O10: event by event. -/
theorem deliveryStaysSound : Obligations.DeliveryStaysSound := by
  intro s t hp he hq hd hc h
  have hkept : t.DeliveryReady := step_keeps (fun _ _ h => ⟨h.params, h.entry, h.quiet, h.delivery, h.commands⟩)
    (fun p _ _ =>
      have hs := State.afterReset_sound p
      ⟨hs.params, hs.entry, hs.quiet, hs.delivery, hs.commands⟩)
    (fun he h => ⟨he.paramsInRange_kept h.params, he.entrySound_kept h.entry, he.quiet_kept h.entry h.quiet,
      he.delivery_kept h.params h.delivery, he.commands_kept h.commands⟩) ⟨hp, he, hq, hd, hc⟩ h
  exact ⟨hkept.quiet, hkept.delivery, hkept.commands⟩

end Sys2Proof.Machine
end

section
/-! PROOFS. The receiver, the link timers, the settle count, the line, the clock and the path at every step (chapters 2, 5, 6
and 7). -/

namespace Sys2Proof.Machine

/-! ### The receiver -/

/-- The receiver counts exactly in the DOWN that it has taken, and keeps to its places. -/
theorem State.receiverSound_iff (s : State) : s.receiverSound ↔
    (s.lrx.rx = .notDecoding ↔ s.lctl.link = .down ∧ s.wires.falling.lrx = false) ∧ s.lrx.rx.bounded := by
  have hnot : ¬ (s.lctl.link = .down ∧ s.wires.falling.lrx = false) ↔ s.lctl.link ≠ .down ∨ s.wires.falling.lrx = true := by
    rw [not_and_or, Bool.not_eq_false]
  unfold State.receiverSound RxState.bounded
  cases s.lrx.rx with
  | notDecoding => simp
  | between => simp only [← hnot, reduceCtorEq, false_iff, and_true]
  | collecting bytes => simp only [← hnot, reduceCtorEq, false_iff]
  | escaped bytes => simp only [← hnot, reduceCtorEq, false_iff]
  | discarding reason => simp only [← hnot, reduceCtorEq, false_iff, and_true]

section
variable {k : EventKind} {s t : State} (he : Event k s t)
include he

/-- Every event keeps the receiver sound. -/
theorem Event.receiver_kept (hentry : s.entrySound) (h : s.receiverSound) : t.receiverSound := by
  obtain ⟨hdecodes, hbounded⟩ := s.receiverSound_iff.1 h
  obtain ⟨hfall, -⟩ := hentry
  cases he
  case receiver x hstep =>
    exact (State.receiverSound_iff _).2 ⟨hstep.decoding.trans hdecodes, hstep.bounded hbounded⟩
  case risen hl =>
    refine (State.receiverSound_iff _).2 ⟨⟨fun hrx => ?_, fun hd => absurd hd.1 nofun⟩, hbounded⟩
    obtain ⟨hdown, -⟩ := hdecodes.1 hrx
    exact absurd (hl.symm.trans hdown) nofun
  case fallen hl _ =>
    refine (State.receiverSound_iff _).2 ⟨⟨fun hrx => ?_, fun hd => absurd hd.2 nofun⟩, hbounded⟩
    obtain ⟨hdown, -⟩ := hdecodes.1 hrx
    exact absurd hdown hl
  case lrxDown hf =>
    have hdown : s.lctl.link = .down := hfall fun hn => by simp [hn, FallMarks.none] at hf
    exact (State.receiverSound_iff _).2 ⟨⟨fun _ => ⟨hdown, rfl⟩, fun _ => rfl⟩, trivial⟩
  case trained => exact (State.receiverSound_iff _).2 ⟨⟨nofun, fun hd => absurd hd.1 nofun⟩, trivial⟩
  case cleared of _ _ =>
    exact s.clearCounters_keeps State.receiverSound of (fun _ h => h) (fun _ h => h) (fun _ h => h)
      (fun _ h => h) (fun _ h => h) (fun _ h => h) h
  case paramSet p _ _ hne =>
    cases p
    case settleCode => exact absurd rfl hne
    all_goals exact h
  all_goals exact h

/-- Every event keeps the settle count below its figure while the receiver counts. -/
theorem Event.settle_kept (hp : s.paramsInRange) (hr : s.receiverSound) (h : s.settleSound) : t.settleSound := by
  obtain ⟨hcount, hless⟩ := id h
  obtain ⟨hdecodes, -⟩ := s.receiverSound_iff.1 hr
  have hcode : s.lrx.settleCode ≤ 3 := by
    obtain ⟨-, -, -, -, -, -, -, hcode, -⟩ := hp
    exact hcode
  cases he
  case receiver x hstep => exact hstep.settle hcode h
  case countedOn n hrx hl =>
    obtain ⟨hdown, -⟩ := hdecodes.1 hrx
    exact absurd hdown hl
  case lrxDown => exact ⟨Nat.zero_le _, fun _ => settleFigure_pos _⟩
  case trained n hl _ _ _ hrx hn =>
    have hmost := settleFigure_le hcode
    have hbelow := hless hrx
    refine ⟨?_, nofun⟩
    dsimp only
    omega
  case settleCodeSet v _ hv =>
    refine ⟨hcount, fun hrx => ?_⟩
    obtain ⟨hdown, -⟩ := hdecodes.1 hrx
    exact (hv hrx).resolve_right (not_not_intro hdown)
  case cleared of _ _ =>
    exact s.clearCounters_keeps State.settleSound of (fun _ h => h) (fun _ h => h) (fun _ h => h)
      (fun _ h => h) (fun _ h => h) (fun _ h => h) h
  case paramSet p _ _ hne =>
    cases p
    case settleCode => exact absurd rfl hne
    all_goals exact h
  all_goals exact h

end

/-! ### The link timers -/

/-- The silence timer stands in DOWN alone, the hello timer out of TRAINING, and a HELLO is pending in TRAINING and until the
transmitter takes the entry to DOWN. -/
theorem State.linkTimersSound_iff (s : State) : s.linkTimersSound ↔
    (s.lctl.silenceTimer = none ↔ s.lctl.link = .down) ∧ (s.lctl.helloTimer = none ↔ s.lctl.link ≠ .training) ∧
    (s.ltx.helloPending = true → s.lctl.link = .training ∨ s.lctl.link = .down ∧ s.wires.falling.ltx = true) := by
  unfold State.linkTimersSound
  cases s.lctl.link with
  | down => cases s.ltx.helloPending <;> cases s.wires.falling.ltx <;> simp
  | training => simp
  | up => cases s.ltx.helloPending <;> simp

section
variable {k : EventKind} {s t : State} (he : Event k s t)
include he

/-- Every event keeps the link timers as Table 7-2 has them. -/
theorem Event.timers_kept (h : s.linkTimersSound) : t.linkTimersSound := by
  obtain ⟨hsilence, hhello, hpending⟩ := s.linkTimersSound_iff.1 h
  have hline {x : LinkTransmitter} (hx : LineStep s.ltx x) (hp : x.helloPending = true) :
      s.lctl.link = .training ∨ s.lctl.link = .down ∧ s.wires.falling.ltx = true := hpending (hx.hello hp)
  cases he
  case line x hx => exact (State.linkTimersSound_iff _).2 ⟨hsilence, hhello, hline hx⟩
  case upTaken hx => exact (State.linkTimersSound_iff _).2 ⟨hsilence, hhello, hline hx⟩
  case silenceStarted hl => exact (State.linkTimersSound_iff _).2 ⟨⟨nofun, fun hd => absurd hd hl⟩, hhello, hpending⟩
  case silenceStopped hl => exact (State.linkTimersSound_iff _).2 ⟨⟨fun _ => hl, fun _ => rfl⟩, hhello, hpending⟩
  case helloStarted hl =>
    exact (State.linkTimersSound_iff _).2 ⟨hsilence, ⟨nofun, fun hd => absurd hl hd⟩, fun _ => .inl hl⟩
  case helloStopped hl => exact (State.linkTimersSound_iff _).2 ⟨hsilence, ⟨fun _ => hl, fun _ => rfl⟩, hpending⟩
  case risen hl =>
    refine (State.linkTimersSound_iff _).2 ⟨⟨fun hn => ?_, nofun⟩, ⟨fun _ => nofun, fun _ => rfl⟩, nofun⟩
    exact absurd (hl.symm.trans (hsilence.1 hn)) nofun
  case fallen =>
    exact (State.linkTimersSound_iff _).2 ⟨⟨fun _ => rfl, fun _ => rfl⟩, ⟨fun _ => nofun, fun _ => rfl⟩, fun _ => .inr ⟨rfl, rfl⟩⟩
  case ltxDown x hpend hf hx =>
    refine (State.linkTimersSound_iff _).2 ⟨hsilence, hhello, fun hp => ?_⟩
    exact absurd (hpend.symm.trans hp) nofun
  case trained => exact (State.linkTimersSound_iff _).2 ⟨⟨nofun, nofun⟩, ⟨nofun, fun hd => absurd rfl hd⟩, fun _ => .inl rfl⟩
  case tick =>
    have htimer (x : Timer) : tickTimer x = none ↔ x = none := by simp [tickTimer]
    exact (State.linkTimersSound_iff _).2 ⟨(htimer _).trans hsilence, (htimer _).trans hhello, hpending⟩
  case period =>
    have hsame : s.ltx.clkPeriod.helloPending = s.ltx.helloPending := by
      unfold LinkTransmitter.clkPeriod
      split <;> rfl
    exact (State.linkTimersSound_iff _).2 ⟨hsilence, hhello, fun hp => hpending (hsame.symm.trans hp)⟩
  case cleared of _ _ =>
    exact s.clearCounters_keeps State.linkTimersSound of (fun _ h => h) (fun _ h => h) (fun _ h => h)
      (fun _ h => h) (fun _ h => h) (fun _ h => h) h
  case paramSet p _ _ hne =>
    cases p
    case settleCode => exact absurd rfl hne
    all_goals exact h
  all_goals exact h

/-! ### The line and the clock -/

/-- Every event keeps the line sound. -/
theorem Event.line_kept (h : s.lineSound) : t.lineSound := by
  cases he
  case line x hx => exact hx.line h
  case upTaken hx => exact hx.line h
  case ltxDown hx => exact hx.line h
  case period =>
    have hsame : (State.reset.withLtx s.ltx).lineSound → (State.reset.withLtx s.ltx.clkPeriod).lineSound := by
      unfold LinkTransmitter.clkPeriod
      split <;> exact id
    exact hsame h
  case cleared of _ _ =>
    exact s.clearCounters_keeps State.lineSound of (fun _ h => h) (fun _ h => h) (fun _ h => h)
      (fun _ h => h) (fun _ h => h) (fun _ h => h) h
  case paramSet p _ _ hne =>
    cases p
    case settleCode => exact absurd rfl hne
    all_goals exact h
  all_goals exact h

/-- Every event keeps the clock sound. -/
theorem Event.clock_kept (h : s.clockSound) : t.clockSound := by
  obtain ⟨hprescaler, htick, hclk, hbyte⟩ := id h
  have hline {x : LinkTransmitter} (hx : LineStep s.ltx x) : x.byteClk < 8 ∧ (x.byteDue = true → x.byteClk = 0) := by
    rw [hx.clock]
    exact ⟨hclk, fun hd => hbyte (hx.due hd)⟩
  cases he
  case line x hx => exact ⟨hprescaler, htick, hline hx⟩
  case upTaken hx => exact ⟨hprescaler, htick, hline hx⟩
  case ltxDown hx => exact ⟨hprescaler, htick, hline hx⟩
  case tick => exact ⟨Nat.two_pow_pos _, fun _ => rfl, hclk, hbyte⟩
  case period htd hbd =>
    have htbs : s.tbs.clkPeriod.prescaler < 2 ^ s.tbs.clkPeriod.shiftInUse ∧
        (s.tbs.clkPeriod.tickDue = true → s.tbs.clkPeriod.prescaler = 0) := by
      unfold Timebase.clkPeriod
      split
      · next hlt => exact ⟨hlt, fun hd => absurd (htd.symm.trans hd) nofun⟩
      · exact ⟨Nat.two_pow_pos _, fun _ => rfl⟩
    have hltx : s.ltx.clkPeriod.byteClk < 8 ∧ (s.ltx.clkPeriod.byteDue = true → s.ltx.clkPeriod.byteClk = 0) := by
      unfold LinkTransmitter.clkPeriod
      split
      · next hlt => exact ⟨hlt, fun hd => absurd (hbd.symm.trans hd) nofun⟩
      · exact ⟨Nat.zero_lt_succ 7, fun _ => rfl⟩
    exact ⟨htbs.1, htbs.2, hltx⟩
  case cleared of _ _ =>
    exact s.clearCounters_keeps State.clockSound of (fun _ h => h) (fun _ h => h) (fun _ h => h)
      (fun _ h => h) (fun _ h => h) (fun _ h => h) h
  case paramSet p _ _ hne =>
    cases p
    case settleCode => exact absurd rfl hne
    all_goals exact h
  all_goals exact h

end

/-- What the statement on the link assumes, together. -/
structure State.LinkReady (s : State) : Prop where
  params   : s.paramsInRange
  receiver : s.receiverSound
  timers   : s.linkTimersSound
  settle   : s.settleSound
  entry    : s.entrySound

/-- Settles O11: event by event. -/
theorem linkStaysSound : Obligations.LinkStaysSound := by
  intro s t hp hr ht hset he h
  have hkept : t.LinkReady := step_keeps (fun _ _ h => ⟨h.params, h.receiver, h.timers, h.settle, h.entry⟩)
    (fun p _ _ =>
      have hs := State.afterReset_sound p
      ⟨hs.params, hs.receiver, hs.timers, hs.settle, hs.entry⟩)
    (fun he h => ⟨he.paramsInRange_kept h.params, he.receiver_kept h.entry h.receiver, he.timers_kept h.timers,
      he.settle_kept h.params h.receiver h.settle, he.entrySound_kept h.entry⟩) ⟨hp, hr, ht, hset, he⟩ h
  exact ⟨hkept.receiver, hkept.timers, hkept.settle, hkept.entry,
    fun hs => step_keeps (fun _ _ h => h) (fun p _ _ => (State.afterReset_sound p).line) (fun he h => he.line_kept h) hs h,
    fun hs => step_keeps (fun _ _ h => h) (fun p _ _ => (State.afterReset_sound p).clock) (fun he h => he.clock_kept h) hs h⟩

/-! ### The path -/

/-- Every event keeps the tracking list, the ports and the stall timer in agreement. -/
theorem Event.path_kept {k : EventKind} {s t : State} (he : Event k s t) (h : s.path.Sound) : t.path.Sound := by
  cases he
  case path hstep => exact hstep.sound h
  case tick =>
    obtain ⟨htracking, hports, hstall⟩ := h
    refine ⟨htracking, hports, ?_⟩
    have htimer : s.tickCounters.path.stallTimer = none ↔ s.path.stallTimer = none := by
      simp [State.tickCounters, tickTimer]
    have hstate : s.tickCounters.path.state = s.path.state := rfl
    simp only [State.stallSound, State.withPath_fields, hstate, ne_eq, htimer] at hstall ⊢
    exact hstall
  case cleared of _ _ =>
    exact s.clearCounters_keeps (fun u => u.path.Sound) of (fun _ h => h) (fun _ h => h) (fun _ h => h)
      (fun _ h => h) (fun _ h => h) (fun _ h => h) h
  case paramSet p _ _ hne =>
    cases p
    case settleCode => exact absurd rfl hne
    all_goals exact h
  all_goals exact h

/-- Settles O12: event by event. -/
theorem pathStaysSound : Obligations.PathStaysSound := by
  intro s t htracking hports hstall h
  exact step_keeps (P := fun u => u.path.Sound) (fun _ _ h => h)
    (fun p _ _ =>
      have hs := State.afterReset_sound p
      ⟨hs.tracking, hs.ports, hs.stall⟩) (fun he h => he.path_kept h) ⟨htracking, hports, hstall⟩ h

end Sys2Proof.Machine
end

section
/-! PROOFS. What each command leaves alone (Table 95-1), and that alerts and counters are kept (sections 10.1 and 10.4). -/

namespace Sys2Proof.Machine

/-! ### Codes -/

/-- The code of the commands that alone bring about events of the kind. -/
def EventKind.code : EventKind → Option Byte
  | .setEntry    => some 0x02
  | .clearTable  => some 0x03
  | .setParam    => some 0x05
  | .getStatus   => some 0x06
  | .clearAlerts => some 0x07
  | .path | .hit | .link | .receive | .rise | .status | .clock | .period | .command => none

/-- A code allows an event of another's kind only if it is that code. -/
theorem allowsCode_code {k : EventKind} {code c : Byte} (hk : k.code = some code) (h : allowsCode c k) : c = code := by
  cases k <;> simp only [EventKind.code, Option.some.injEq, reduceCtorEq] at hk <;> exact h.trans hk

/-- A command with an event of the kind of a code carries the code. -/
theorem allows_carriesCode {i : Instr} {s : State} {k : EventKind} {code : Byte} (hk : k.code = some code)
    (h : allows i s k) : carriesCode code i s = true := by
  cases hfields : commandFields i with
  | some f =>
    obtain ⟨tag, c, args⟩ := f
    rw [allows_of_fields hfields] at h
    simp [carriesCode, hfields, allowsCode_code hk h]
  | none =>
    cases i <;> simp only [commandFields, reduceCtorEq] at hfields
    case downlinkByte b =>
      obtain rfl | rfl | rfl | ⟨-, rfl | rfl⟩ | ⟨tag, c, args, hh, hc⟩ := h
      · exact absurd hk nofun
      · exact absurd hk nofun
      · exact absurd hk nofun
      · exact absurd hk nofun
      · exact absurd hk nofun
      · simp [carriesCode, hh, allowsCode_code hk hc]
    case coldReset => exact absurd h nofun
    all_goals
      exfalso
      revert h hk
      cases k <;> simp [allows, EventKind.code]

/-- A command that does not carry a code brings about no event of its kind. -/
theorem not_allows_of_code {i : Instr} {s : State} {k : EventKind} {code : Byte} (hk : k.code = some code)
    (h : carriesCode code i s = false) : k ≠ .status ∧ ¬ allows i s k := by
  refine ⟨?_, fun hallowed => absurd (h.symm.trans (allows_carriesCode hk hallowed)) nofun⟩
  rintro rfl
  exact absurd hk nofun

/-- Only a request taken is classified. -/
theorem allows_hit {i : Instr} {s : State} (h : allows i s .hit) : ∃ r, i = .requestTaken r := by
  cases i
  case requestTaken r => exact ⟨r, rfl⟩
  case downlinkByte b =>
    obtain h | h | h | ⟨-, h | h⟩ | ⟨tag, c, args, -, h⟩ := h <;> exact absurd h nofun
  all_goals simp [allows, allowsCode] at h

/-- What events of other kinds keep is kept by a command that brings about none of these. -/
theorem exec_keeps_but {i : Instr} {s t : State} {P : State → Prop} {kinds : EventKind → Prop}
    (hexec : exec i s = .next t) (hi : ∀ p, i ≠ .coldReset p) (hkinds : ∀ k, kinds k → k ≠ .status ∧ ¬ allows i s k)
    (hP : ∀ {k u v}, ¬ kinds k → Event k u v → P u → P v) (hs : P s) : P t := by
  refine (exec_next_reach s hi hexec).keeps (fun k u v hk he hu => hP (fun hkind => ?_) he hu) hs
  obtain ⟨hstatus, hallowed⟩ := hkinds k hkind
  exact hk.elim hallowed hstatus

/-! ### The watch table -/

/-- Events but SET-ENTRY and CLEAR-TABLE change hit counts alone. -/
theorem Event.entries_kept {k : EventKind} {s t : State} (he : Event k s t) (hset : k ≠ .setEntry) (hclear : k ≠ .clearTable)
    (index : Fin 16) (n : BitVec 16) : { t.wtab.entries[index] with hitCount := n } = { s.wtab.entries[index] with hitCount := n } := by
  cases he
  case hit e at' hat =>
    simp only [WatchTable.put, Fin.getElem_fin, Vector.getElem_setIfInBounds]
    split
    · next h =>
      subst h
      rw [Vector.getElem?_eq_getElem index.isLt, Option.some.injEq] at hat
      rw [hat]
    · rfl
  case entrySet => exact absurd rfl hset
  case tableCleared => exact absurd rfl hclear
  case paramSet p _ _ hne =>
    cases p
    case settleCode => exact absurd rfl hne
    all_goals rfl
  all_goals rfl

/-- Events but these and a classification change nothing in the table. -/
theorem Event.wtab_kept {k : EventKind} {s t : State} (he : Event k s t) (hset : k ≠ .setEntry) (hclear : k ≠ .clearTable)
    (hhit : k ≠ .hit) : t.wtab = s.wtab := by
  cases he
  case hit => exact absurd rfl hhit
  case entrySet => exact absurd rfl hset
  case tableCleared => exact absurd rfl hclear
  case paramSet p _ _ hne =>
    cases p
    case settleCode => exact absurd rfl hne
    all_goals rfl
  all_goals rfl

/-- Settles O13: event by event. -/
theorem configurationChangesOnlyByCommand : Obligations.ConfigurationChangesOnlyByCommand := by
  intro i s t hexec hi
  refine ⟨fun hset hclear => ⟨fun index => ?_, fun hrequest => ?_⟩, fun hparam p => ?_⟩
  · refine exec_keeps_but (kinds := fun k => k = .setEntry ∨ k = .clearTable)
      (P := fun u => { u.wtab.entries[index] with hitCount := s.wtab.entries[index].hitCount } = s.wtab.entries[index])
      hexec hi ?_ (fun hk he hu => ?_) rfl
    · rintro k (rfl | rfl)
      · exact not_allows_of_code rfl hset
      · exact not_allows_of_code rfl hclear
    · obtain ⟨hk2, hk3⟩ := not_or.1 hk
      exact (he.entries_kept hk2 hk3 index _).trans hu
  · refine exec_keeps_but (kinds := fun k => k = .setEntry ∨ k = .clearTable ∨ k = .hit) (P := fun u => u.wtab = s.wtab)
      hexec hi ?_ (fun hk he hu => ?_) rfl
    · rintro k (rfl | rfl | rfl)
      · exact not_allows_of_code rfl hset
      · exact not_allows_of_code rfl hclear
      · refine ⟨nofun, fun h => ?_⟩
        obtain ⟨r, hr⟩ := allows_hit h
        exact hrequest r hr
    · simp only [not_or] at hk
      obtain ⟨hk2, hk3, hhit⟩ := hk
      exact (he.wtab_kept hk2 hk3 hhit).trans hu
  · refine exec_keeps_but (kinds := fun k => k = .setParam) (P := fun u => u.paramValue p = s.paramValue p)
      hexec hi ?_ (fun hk he hu => (he.paramValue_kept hk p).trans hu) rfl
    rintro k rfl
    exact not_allows_of_code rfl hparam

/-! ### The memory path and the link -/

section
variable {s t u : State}

/-- What the memory path's events leave alone (Blocks of the Part). -/
def State.PathApart (s t : State) : Prop :=
  t.tbs = s.tbs ∧ t.mrk = s.mrk ∧ t.frzu = s.frzu ∧ t.lrx = s.lrx ∧ t.lctl = s.lctl ∧ t.ltx = s.ltx ∧
  t.dlv = s.dlv ∧ t.cmd = s.cmd ∧ t.pins = s.pins ∧ t.choices = s.choices ∧
  { t.wires with claims := s.wires.claims, spaceFreed := s.wires.spaceFreed } = s.wires ∧ t.alr.enable = s.alr.enable ∧
  t.jctl.epoch = s.jctl.epoch ∧ s.jctl.frames <+: t.jctl.frames

/-- What the link's events leave alone. -/
def State.LinkApart (s t : State) : Prop :=
  t.path = s.path ∧ t.wtab = s.wtab ∧ t.tbs = s.tbs ∧ t.mrk = s.mrk ∧ t.frzu = s.frzu ∧ t.pins = s.pins ∧
  s.choices ≤ t.choices ∧ t.wires.claims = s.wires.claims ∧ t.cmd.lastTag = s.cmd.lastTag ∧ t.alr.enable = s.alr.enable ∧
  (∃ m : BitVec 6, t.alr.flags = s.alr.flags ||| (m &&& 0b001100)) ∧
  { t.jctl with frames := s.jctl.frames } = s.jctl ∧
  t.jctl.frames.map Frame.contents <:+ s.jctl.frames.map Frame.contents

/-- The memory path's events leave the other blocks alone. -/
theorem Event.path_apart {k : EventKind} (he : Event k u t) (hk : k = .path ∨ k = .hit) (h : s.PathApart u) :
    s.PathApart t := by
  obtain ⟨htbs, hmrk, hfrzu, hlrx, hlctl, hltx, hdlv, hcmd, hpins, hchoices, hwires, halr, hepoch, hframes⟩ := id h
  cases he
  case store j hstep =>
    obtain ⟨new, hnew, -⟩ := hstep.added
    refine ⟨htbs, hmrk, hfrzu, hlrx, hlctl, hltx, hdlv, hcmd, hpins, hchoices, hwires, halr, hstep.epoch.trans hepoch, ?_⟩
    dsimp only
    rw [hnew]
    exact hframes.trans (List.prefix_append _ _)
  case path | hit => exact h
  all_goals exact absurd hk (by simp)

/-- The frames' contents alone are what delivery leaves in its place. -/
theorem State.LinkApart.withFrames (h : s.LinkApart u) {j : Journal} (hrest : { j with frames := u.jctl.frames } = u.jctl)
    (hcontents : j.frames.map Frame.contents <:+ u.jctl.frames.map Frame.contents) : s.LinkApart (u.withJctl j) := by
  obtain ⟨hpath, hwtab, htbs, hmrk, hfrzu, hpins, hchoices, hclaims, hlast, henable, hflags, hjctl, hframes⟩ := h
  refine ⟨hpath, hwtab, htbs, hmrk, hfrzu, hpins, hchoices, hclaims, hlast, henable, hflags, ?_, hcontents.trans hframes⟩
  exact (congrArg (fun x : Journal => { x with frames := s.jctl.frames }) hrest).trans hjctl

/-- The link's events leave the other blocks alone. -/
theorem Event.link_apart {k : EventKind} (he : Event k u t) (hk : k = .link ∨ k = .receive ∨ k = .rise) (h : s.LinkApart u) :
    s.LinkApart t := by
  have hframes {j : Journal} (hrest : { j with frames := u.jctl.frames } = u.jctl)
      (hcontents : j.frames.map Frame.contents <:+ u.jctl.frames.map Frame.contents) : s.LinkApart (u.withJctl j) :=
    h.withFrames hrest hcontents
  have hmapped {m : Frame → Frame} (hm : ∀ f, (m f).contents = f.contents) :
      s.LinkApart (u.withJctl { u.jctl with frames := u.jctl.frames.map m }) := by
    refine hframes rfl ?_
    rw [List.map_map, show Frame.contents ∘ m = Frame.contents from funext hm]
  cases he
  case delivery hstep => exact hframes hstep.rest hstep.contents
  case upTaken hstep _ => exact hframes hstep.rest hstep.contents
  case sending f frames _ hw hf =>
    obtain ⟨before, after, hl, -, -, rfl⟩ := State.sending_split hw hf
    refine hframes rfl ?_
    rw [hl]
    simp [Frame.contents]
  case risen => exact hmapped (m := freshFrame) fun _ => rfl
  case dlvDown => exact hmapped (m := returnedFrame) fun _ => rfl
  case linkAlert m =>
    obtain ⟨hpath, hwtab, htbs, hmrk, hfrzu, hpins, hchoices, hclaims, hlast, henable, ⟨m', hflags⟩, hrest⟩ := h
    refine ⟨hpath, hwtab, htbs, hmrk, hfrzu, hpins, hchoices, hclaims, hlast, henable, ⟨m' ||| m, ?_⟩, hrest⟩
    dsimp only
    rw [hflags, BitVec.or_assoc, BitVec.and_or_distrib_right]
  case drawn n hn =>
    obtain ⟨hpath, hwtab, htbs, hmrk, hfrzu, hpins, hchoices, hrest⟩ := h
    exact ⟨hpath, hwtab, htbs, hmrk, hfrzu, hpins, Nat.le_trans hchoices hn, hrest⟩
  case line | replyStarted | reports | reportTaken | reportMade | handedOff | handedOn | receiver | countedOn | silenceStarted
    | silenceStopped | helloStarted | helloStopped | upGiven | fallen | lrxDown | ltxDown | cmdDown | alrDown | trained =>
    exact h
  all_goals exact absurd hk (by simp)

end

/-- The link's commands are made of the link's events. -/
theorem allows_of_isLinkCommand {i : Instr} {s : State} {k : EventKind} (hi : isLinkCommand i s = true) (h : allows i s k) :
    k = .link ∨ k = .receive ∨ k = .rise := by
  cases i <;> simp only [isLinkCommand, Bool.false_eq_true] at hi
  case downlinkByte b =>
    obtain h | h | h | ⟨hr, -⟩ | ⟨tag, c, args, hh, -⟩ := h
    · exact .inl h
    · exact .inr (.inl h)
    · exact .inr (.inr h)
    · split at hi
      · exact absurd hi nofun
      · exact absurd (Option.isNone_iff_eq_none.1 hi) hr
    · rw [hh] at hi
      exact absurd hi nofun
  case recorderHello e => exact h.imp_right .inr
  all_goals exact .inl h

/-- The path's commands are made of the path's events. -/
theorem allows_of_isPathCommand {i : Instr} {s : State} {k : EventKind} (hi : isPathCommand i = true) (h : allows i s k) :
    k = .path ∨ k = .hit := by
  cases i <;> simp only [isPathCommand, Bool.false_eq_true] at hi
  case requestTaken r => exact h
  all_goals exact .inl h

/-- Settles O14: event by event. -/
theorem pathAndLinkCommandsKeepApart : Obligations.PathAndLinkCommandsKeepApart := by
  intro i s
  by_cases hreset : ∃ p, i = .coldReset p
  · obtain ⟨p, rfl⟩ := hreset
    exact ⟨_, (nextOf_none _ rfl).symm, nofun, nofun⟩
  obtain ⟨t, ht, hreach⟩ := exec_reach s fun p hp => hreset ⟨p, hp⟩
  refine ⟨t, ht, fun hi => ?_, fun hi => ?_⟩
  · exact hreach.keeps (P := s.PathApart) (fun _ _ _ hk he => he.path_apart (allows_of_isPathCommand hi hk))
      ⟨rfl, rfl, rfl, rfl, rfl, rfl, rfl, rfl, rfl, rfl, rfl, rfl, rfl, List.prefix_rfl⟩
  · exact hreach.keeps (P := s.LinkApart) (fun _ _ _ hk he => he.link_apart (allows_of_isLinkCommand hi hk))
      ⟨rfl, rfl, rfl, rfl, rfl, rfl, Nat.le_refl _, rfl, rfl, rfl, ⟨0, by simp⟩, rfl, List.suffix_rfl⟩

/-! ### Alerts and counters -/

/-- A flag that was set is set. -/
theorem Event.flags_kept {k : EventKind} {s t : State} (he : Event k s t) (hk : k ≠ .clearAlerts) {flags : BitVec 6}
    (h : flags &&& ~~~s.alr.flags = 0) : flags &&& ~~~t.alr.flags = 0 := by
  have hor (m : BitVec 6) : flags &&& ~~~(s.alr.flags ||| m) = 0 := by
    rw [BitVec.not_or, ← BitVec.and_assoc, h]
    exact BitVec.zero_and
  cases he
  case path m _ => exact hor m
  case linkAlert m => exact hor _
  case alertsCleared => exact absurd rfl hk
  case paramSet p _ _ hne =>
    cases p
    case settleCode => exact absurd rfl hne
    all_goals exact h
  all_goals exact h

/-- No counter of Table 10-3 falls. -/
structure State.Counts (s t : State) : Prop where
  appended      : s.jctl.recordsAppended ≤ t.jctl.recordsAppended
  lost          : s.jctl.recordsLost ≤ t.jctl.recordsLost
  closed        : s.jctl.framesClosed ≤ t.jctl.framesClosed
  retransmitted : s.ltx.retransmitted ≤ t.ltx.retransmitted
  refused       : s.path.writesRefused ≤ t.path.writesRefused
  expiries      : s.path.stallExpiries ≤ t.path.stallExpiries
  failures      : s.path.writeFailures ≤ t.path.writeFailures
  unmatched     : s.path.unmatchedResponses ≤ t.path.unmatchedResponses
  commands      : s.cmd.commandsDiscarded ≤ t.cmd.commandsDiscarded
  discards      : s.lrx.discards.Grows t.lrx.discards
  range         : s.dlv.range ≤ t.dlv.range

/-- One rise after another. -/
theorem DiscardCounters.Grows.trans {c d e : DiscardCounters} (h : c.Grows d) (h' : d.Grows e) : c.Grows e where
  crc    := BitVec.le_trans h.crc h'.crc
  length := BitVec.le_trans h.length h'.length
  abort  := BitVec.le_trans h.abort h'.abort
  escape := BitVec.le_trans h.escape h'.escape
  kind   := BitVec.le_trans h.kind h'.kind
  state  := BitVec.le_trans h.state h'.state

/-- Delivery changes the frames alone. -/
theorem DeliveryStep.eq_withFrames {j k : Journal} {d e : Delivery} (h : DeliveryStep j d k e) :
    k = { j with frames := k.frames } :=
  congrArg (fun x : Journal => { x with frames := k.frames }) h.rest

section
variable {s t u : State}

/-- With the same blocks the counters are the same. -/
theorem State.Counts.refl (s : State) : s.Counts s :=
  ⟨BitVec.le_refl _, BitVec.le_refl _, BitVec.le_refl _, BitVec.le_refl _, BitVec.le_refl _, BitVec.le_refl _, BitVec.le_refl _,
    BitVec.le_refl _, BitVec.le_refl _, DiscardCounters.Grows.refl _, BitVec.le_refl _⟩

/-- One rise after another. -/
theorem State.Counts.trans (h : s.Counts t) (h' : t.Counts u) : s.Counts u where
  appended      := BitVec.le_trans h.appended h'.appended
  lost          := BitVec.le_trans h.lost h'.lost
  closed        := BitVec.le_trans h.closed h'.closed
  retransmitted := BitVec.le_trans h.retransmitted h'.retransmitted
  refused       := BitVec.le_trans h.refused h'.refused
  expiries      := BitVec.le_trans h.expiries h'.expiries
  failures      := BitVec.le_trans h.failures h'.failures
  unmatched     := BitVec.le_trans h.unmatched h'.unmatched
  commands      := BitVec.le_trans h.commands h'.commands
  discards      := h.discards.trans h'.discards
  range         := BitVec.le_trans h.range h'.range

/-- The sixteen counters, one by one. -/
theorem State.Counts.forall₂ (h : s.Counts t) : List.Forall₂ (· ≤ ·) s.counters t.counters := by
  obtain ⟨happended, hlost, hclosed, hretransmitted, hrefused, hexpiries, hfailures, hunmatched, hcommands,
    ⟨hcrc, hlength, habort, hescape, hkind, hstate⟩, hrange⟩ := h
  exact .cons happended (.cons hlost (.cons hclosed (.cons hretransmitted (.cons hrefused (.cons hexpiries (.cons hfailures
    (.cons hunmatched (.cons hcommands (.cons hcrc (.cons hlength (.cons habort (.cons hescape (.cons hkind (.cons hstate
    (.cons hrange .nil)))))))))))))))

/-- A GET-STATUS being executed that does not clear goes on so. -/
theorem Event.clear_kept {k : EventKind} (he : Event k s t) (hk : k ≠ .getStatus)
    (h : ∀ r, s.cmd.reading = some r → r.clear = false) : ∀ r, t.cmd.reading = some r → r.clear = false := by
  cases he
  case begun => exact absurd rfl hk
  case readOn r q n hclear _ _ hr _ =>
    rintro x ⟨⟩
    exact hclear.trans (h r hr)
  case statusReplied | replied => exact fun _ => nofun
  case cleared of _ _ =>
    exact s.clearCounters_keeps (fun u => ∀ r, u.cmd.reading = some r → r.clear = false) of (fun _ h => h) (fun _ h => h)
      (fun _ h => h) (fun _ h => h) (fun _ h => h) (fun _ h => h) h
  case paramSet p _ _ hne =>
    cases p
    case settleCode => exact absurd rfl hne
    all_goals exact h
  all_goals exact h

/-- Unless owners clear their counters, no counter falls. -/
theorem Event.counts {k : EventKind} (he : Event k s t) (h : ∀ r, s.cmd.reading = some r → r.clear = false) : s.Counts t := by
  have hsame : s.Counts s := State.Counts.refl s
  cases he
  case path p _ _ _ hstep =>
    obtain ⟨-, hrefused, hexpiries, hfailures, hunmatched⟩ := hstep.grows
    exact { hsame with refused := hrefused, expiries := hexpiries, failures := hfailures, unmatched := hunmatched }
  case store j hstep => exact { hsame with appended := hstep.appended, lost := hstep.lost, closed := hstep.closed }
  case delivery j d hstep =>
    rw [hstep.eq_withFrames]
    exact { hsame with range := hstep.range }
  case line x hx => exact { hsame with retransmitted := hx.count }
  case receiver x hstep => exact { hsame with discards := hstep.discards }
  case upTaken j d x freed _ hstep hx =>
    rw [hstep.eq_withFrames]
    exact { hsame with range := hstep.range, retransmitted := hx.count }
  case ltxDown x _ _ hx => exact { hsame with retransmitted := hx.count }
  case cleared r of hclear hr => exact absurd ((h r hr).symm.trans hclear) nofun
  case period =>
    have hcount : s.ltx.retransmitted ≤ s.ltx.clkPeriod.retransmitted := by
      unfold LinkTransmitter.clkPeriod
      split <;> exact BitVec.le_refl _
    exact { hsame with retransmitted := hcount }
  case discardedFull => exact { hsame with commands := le_satInc _ }
  case paramSet p _ _ hne =>
    cases p
    case settleCode => exact absurd rfl hne
    all_goals exact ⟨hsame.appended, hsame.lost, hsame.closed, hsame.retransmitted, hsame.refused, hsame.expiries,
      hsame.failures, hsame.unmatched, hsame.commands, hsame.discards, hsame.range⟩
  all_goals exact ⟨hsame.appended, hsame.lost, hsame.closed, hsame.retransmitted, hsame.refused, hsame.expiries,
      hsame.failures, hsame.unmatched, hsame.commands, hsame.discards, hsame.range⟩

end

/-- Settles O15: event by event. -/
theorem alertsAndCountersAreKept : Obligations.AlertsAndCountersAreKept := by
  intro i s t hexec hi
  refine ⟨fun halerts => ?_, fun hstatus hclear => ?_⟩
  · refine exec_keeps_but (kinds := fun k => k = .clearAlerts) (P := fun u => s.alr.flags &&& ~~~u.alr.flags = 0)
      hexec hi ?_ (fun hk he hu => he.flags_kept hk hu) (by simp)
    rintro k rfl
    exact not_allows_of_code rfl halerts
  · obtain ⟨hcounts, -⟩ : s.Counts t ∧ ∀ r, t.cmd.reading = some r → r.clear = false := by
      refine exec_keeps_but (kinds := fun k => k = .getStatus)
        (P := fun u => s.Counts u ∧ ∀ r, u.cmd.reading = some r → r.clear = false)
        hexec hi ?_ (fun hk he hu => ?_) ⟨State.Counts.refl s, hclear⟩
      · rintro k rfl
        exact not_allows_of_code rfl hstatus
      · obtain ⟨hu, hr⟩ := hu
        exact ⟨hu.trans (he.counts hr), he.clear_kept hk hr⟩
    exact hcounts.forall₂

end Sys2Proof.Machine
end

section
/-! PROOFS. The end of the handing on of a body (section 6.3): what the block does with it leaves the receiver's decoding alone. -/

namespace Sys2Proof.Machine

/-! ### What a body leaves alone at the receiver -/

section
variable {s t : State}

/-- Delivery leaves the receiver alone. -/
theorem State.Delivers.lrx (h : s.Delivers t) : t.lrx = s.lrx := by
  obtain ⟨j, d, x, freed, -, -, rfl⟩ := h
  rfl

/-- So does the entry to UP at the delivery controller. -/
theorem State.takeUp_lrx (s : State) : s.takeUp.lrx = s.lrx := by
  obtain ⟨-, -, hlrx, -⟩ := s.takeUp_fields
  exact hlrx

/-- And what the delivery controller takes of a change of the link state. -/
theorem State.dlvTakesLink_lrx (s : State) : s.dlvTakesLink.lrx = s.lrx := by
  obtain ⟨-, -, -, -, -, hlrx, -⟩ := s.takeUp.dlvTakesDown_fields
  exact hlrx.trans s.takeUp_lrx

/-- A frame-received report is no concern of the receiver. -/
theorem State.takeFrameReport_lrx (s : State) : s.takeFrameReport.lrx = s.lrx := by rw [State.takeFrameReport_eq]

/-- Nor is a recorder HELLO. -/
theorem State.takeHello_lrx (e : Seq) (s : State) : (s.takeHello e).lrx = s.lrx := by
  rw [← s.takeFrameReport_lrx]
  unfold State.takeHello
  dsimp only
  cases s.takeFrameReport.lctl.link with
  | down => rfl
  | up => exact ((State.delivers_takeHelloNumber e _).lrx).trans (State.takeUp_lrx _)
  | training =>
    unfold State.handUp
    dsimp only
    split
    · rfl
    · exact State.takeUp_lrx _

/-- A reply formed is none. -/
theorem State.formReply_lrx (tag code : Byte) (e : Executed) : (State.formReply tag code e).lrx = e.1.lrx := by
  unfold State.formReply
  split
  · rw [State.giveReply_eq]
    rfl
  · rfl

/-- A parameter set at a receiver that decodes leaves its decoding alone. -/
theorem State.setParamValue_rx (p : Param) (v : Nat) (h : s.lrx.rx ≠ .notDecoding) :
    (s.setParamValue p v).lrx.rx = s.lrx.rx := by
  cases p
  case settleCode =>
    unfold State.setParamValue State.setSettleCode
    dsimp only
    split
    · next hrx => exact absurd hrx h
    all_goals rfl
  all_goals rfl

/-- Command freeze is no concern of the receiver. -/
theorem State.setCommandFreeze_rx (on : Bool) : (s.setCommandFreeze on).lrx.rx = s.lrx.rx := by
  unfold State.setCommandFreeze State.freezeChanged
  dsimp only
  split
  · rfl
  · split <;> rfl

/-- So does a command that is run. -/
theorem runCode_rx (tag code : Byte) (args : List Byte) (h : s.lrx.rx ≠ .notDecoding) :
    (runCode tag code args s).1.lrx.rx = s.lrx.rx := by
  have hlength (n : Nat) (run : State → Executed) (hrun : (run s.executing).1.lrx.rx = s.lrx.rx) :
      (withLength n args run s).1.lrx.rx = s.lrx.rx := by
    by_cases hn : args.length = n
    · rw [withLength_right n args run s hn]; exact hrun
    · rw [withLength_wrong n args run s hn]; rfl
  obtain hknown | hunknown := code_cases code
  case inr => rw [runCode_unknown hunknown]; rfl
  rcases hknown with rfl | rfl | rfl | rfl | rfl | rfl | rfl | rfl | rfl | rfl | rfl | rfl
  · refine hlength 1 _ ?_
    unfold runGetEntry
    dsimp only
    split <;> rfl
  · exact hlength 18 _ rfl
  · exact hlength 0 _ rfl
  · refine hlength 1 _ ?_
    unfold runGetParam
    split <;> rfl
  · refine hlength 5 _ ?_
    unfold runSetParam
    split
    · split
      · exact State.setParamValue_rx (s := s.executing) _ _ h
      · rfl
    · rfl
  · refine hlength 1 _ ?_
    unfold runGetStatus
    split <;> rfl
  · exact hlength 1 _ rfl
  · refine hlength 0 _ ?_
    unfold runFlush
    split <;> rfl
  · refine hlength 3 _ ?_
    unfold runMark
    split
    · obtain ⟨-, -, -, -, -, hlrx, -⟩ := State.claim_fields (markCommandClaim (argHalf args 0) _) s.executing
      exact congrArg LinkReceiver.rx hlrx
    · rfl
  · exact hlength 0 _ (State.setCommandFreeze_rx true)
  · exact hlength 0 _ (State.setCommandFreeze_rx false)
  · refine hlength 0 _ ?_
    unfold runRestartJournal
    rw [State.restartJournal, State.sendSpaceFreed_eq, State.abortSending_eq]
    rfl

/-- So does the taking of a command. -/
theorem State.intake_rx (tag code : Byte) (args : List Byte) (h : s.lrx.rx ≠ .notDecoding) :
    (s.intake tag code (runCode tag code args)).lrx.rx = s.lrx.rx := by
  rw [State.intake]
  have hdone : s.finishStatus.lrx.rx ≠ .notDecoding := by rw [State.finishStatus_rx]; exact h
  rw [← State.finishStatus_rx s]
  obtain ⟨-, he⟩ | ⟨-, -, he⟩ | ⟨-, -, r, -, -, he⟩ | ⟨-, he⟩ :=
    State.examine_cases tag code (runCode tag code args) s.finishStatus <;> rw [he]
  · rfl
  · rfl
  · unfold State.queueReply
    split <;> rfl
  · rw [State.formReply_lrx, runCode_rx tag code args hdone]

/-- So does every body. -/
theorem State.deliver_rx (b : Body) (h : s.lrx.rx ≠ .notDecoding) : (s.deliver b).lrx.rx = s.lrx.rx := by
  cases b with
  | hello e => exact congrArg LinkReceiver.rx (s.takeHello_lrx e)
  | ack n => exact congrArg LinkReceiver.rx ((State.delivers_takeAckNumber n _).lrx.trans s.dlvTakesLink_lrx)
  | nak n => exact congrArg LinkReceiver.rx ((State.delivers_takeNakNumber n _).lrx.trans s.dlvTakesLink_lrx)
  | command tag code args => exact s.intake_rx tag code args h

/-- A moment of a GET-STATUS leaves the decoding, and what waits between the blocks, alone. -/
theorem State.ownersAnswer_waits (s : State) :
    s.ownersAnswer.lrx.rx = s.lrx.rx ∧ s.ownersAnswer.wires = s.wires ∧ s.ownersAnswer.lctl = s.lctl := by
  obtain ⟨-, -, -, -, hlctl, -, -, hwires, -, -, -, -, -, hlrx, -⟩ := s.ownersAnswer_fields
  exact ⟨(congrArg LinkReceiver.rx hlrx :), hwires, hlctl⟩

end

/-! ### What waits after a body -/

section
variable {s : State} {b : Body}

/-- With no report waiting, none waits after an event that is not the receiver's. -/
theorem Event.frameReport_none {k : EventKind} {s t : State} (he : Event k s t) (hk : k ≠ .receive)
    (h : s.wires.frameReport = false) : t.wires.frameReport = false := by
  cases he
  case reportMade => exact absurd rfl hk
  case reportTaken => rfl
  case paramSet p _ _ hne =>
    cases p
    case settleCode => exact absurd rfl hne
    all_goals exact h
  all_goals exact h

/-- With no entry to UP waiting, none waits after an event that is not the rise of the link. -/
theorem Event.upHello_none {k : EventKind} {s t : State} (he : Event k s t) (hk : k ≠ .rise) (h : s.wires.upHello = none) :
    t.wires.upHello = none := by
  cases he
  case upGiven => exact absurd rfl hk
  case upTaken => rfl
  case paramSet p _ _ hne =>
    cases p
    case settleCode => exact absurd rfl hne
    all_goals exact h
  all_goals exact h

/-- What every event but the receiver's keeps holds after a body is dealt with. -/
theorem State.deliver_keeps {P : State → Prop} (hh : s.wires.handedOn = none)
    (hP : ∀ {k u v}, k ≠ .receive → Event k u v → P u → P v) (h : P s) : P (s.deliver b) := by
  refine (s.deliver_reach (allow := (· ≠ .receive)) b nofun (.inl nofun) hh fun tag code args _ k hk => ?_).keeps
    (fun _ _ _ hk he => hP hk he) h
  rintro rfl
  exact hk

/-- Out of TRAINING so does what every event but the rise of the link keeps. -/
theorem State.deliver_keeps_low {P : State → Prop} (hh : s.wires.handedOn = none) (hl : s.lctl.link ≠ .training)
    (hP : ∀ {k u v}, k ≠ .rise → Event k u v → P u → P v) (h : P s) : P (s.deliver b) := by
  refine (s.deliver_reach (allow := (· ≠ .rise)) b nofun (.inr hl) hh fun tag code args _ k hk => ?_).keeps
    (fun _ _ _ hk he => hP hk he) h
  rintro rfl
  exact hk

/-- A row of the recorder hands its body to its block, once no other body waits. -/
theorem exec_bodyOfRow_taken {i : Instr} (hi : bodyOfRow i = some b) : exec i s = nextOf (s.takeHanded b (State.deliver b)) := by
  cases hfields : commandFields i with
  | some f =>
    obtain ⟨tag, code, args⟩ := f
    have hb : b = .command tag code args := by
      cases i <;> simp only [commandFields, Option.some.injEq, Prod.mk.injEq, reduceCtorEq] at hfields <;>
        obtain ⟨rfl, rfl, rfl⟩ := hfields <;> exact (Option.some.inj hi).symm
    subst hb
    exact exec_command hfields s
  | none =>
    cases i <;> simp only [bodyOfRow, hfields, Option.map_none, Option.some.injEq, reduceCtorEq] at hi <;> subst hi
    all_goals rfl

/-- A row of the recorder whose body is next hands it to its block. -/
theorem exec_bodyOfRow {i : Instr} (hi : bodyOfRow i = some b) (hn : s.isNext b) :
    exec i s = nextOf (s.handedOff.deliver b) := by
  rw [exec_bodyOfRow_taken hi, State.takeHanded_next _ _ _ hn]

/-- While another body waits the row has no effect. -/
theorem exec_bodyOfRow_other {i : Instr} {c : Body} (hi : bodyOfRow i = some b) (hc : s.wires.handedOn = some c) (hne : c ≠ b) :
    exec i s = nextOf s := by
  rw [exec_bodyOfRow_taken hi]
  obtain ⟨hn | hn, -⟩ | ⟨_, -, -, h⟩ := s.takeHanded_cases b (State.deliver b)
  · exact absurd (hc.symm.trans hn) nofun
  · exact absurd (Option.some.inj (hc.symm.trans hn)) hne
  · rw [h]

end

/-! ### The byte that meets the end of a handing on -/

section
variable {s : State} {b : Byte}

/-- The byte that ends a body or settles the line, but with the HELLO waiting that moves the link to UP. -/
theorem exec_downlinkByte_meets (h : (s.lrx.endsBody b || s.lrx.settles b) = true) (hm : s.movePending = false) :
    exec (.downlinkByte b) s = nextOf (s.finishHanding.takeByte s.finishHanding.lctl.link b) := by
  have he : exec (.downlinkByte b) s = nextOf (s.takeByteHandedOn b) := congrArg nextOf (if_pos h)
  obtain ⟨-, hc⟩ | ⟨hc, -⟩ := s.takeByteHandedOn_cases b
  · rw [he, hc]
  · exact absurd (hm.symm.trans hc) nofun

/-- With no body waiting the end of the handing on is that of the report and of the entry to UP. -/
theorem State.finishHanding_noBody (h : s.wires.handedOn = none) : s.finishHanding = s.takeFrameReport.takeUp := by
  have hhanded : s.takeFrameReport.wires.handedOn = none := by rw [State.takeFrameReport_eq]; exact h
  unfold State.finishHanding
  dsimp only
  rw [hhanded]

/-- A report taken before is no longer there. -/
theorem State.finishHanding_takeFrameReport (s : State) : s.takeFrameReport.finishHanding = s.finishHanding := by
  have htwice : s.takeFrameReport.takeFrameReport = s.takeFrameReport :=
    State.takeFrameReport_none _ (by rw [State.takeFrameReport_eq])
  rw [State.finishHanding, State.finishHanding, htwice]

/-- With no body waiting no move to UP does. -/
theorem State.movePending_noBody (h : s.wires.handedOn = none) : s.movePending = false := by
  simp [State.movePending, h]

/-- With nothing waiting a byte is taken by its decoding state. -/
theorem exec_downlinkByte_nothing (h : s.wires.handedOn = none) (hr : s.wires.frameReport = false) (hu : s.wires.upHello = none) :
    exec (.downlinkByte b) s = nextOf (s.takeByte s.lctl.link b) := by
  cases hm : s.lrx.endsBody b || s.lrx.settles b with
  | false =>
    obtain ⟨hends, hsettles⟩ := Bool.or_eq_false_iff.1 hm
    exact exec_downlinkByte_plain hends hsettles
  | true => rw [exec_downlinkByte_meets hm (State.movePending_noBody h), State.finishHanding_none s h hr hu]

end

end Sys2Proof.Machine
end

section
/-! PROOFS. The line that settles in DOWN (sections 7.2 and 7.3). -/

namespace Sys2Proof.Machine

/-! ### Reports in DOWN -/

section
variable {s : State}

/-- In DOWN a frame-received report has no effect but that it no longer waits. -/
theorem State.takeFrameReport_down (h : s.lctl.link = .down) :
    s.takeFrameReport = s.beside { s.ownBeside with frameReport := false } := by
  rw [State.takeFrameReport_eq, if_neg fun hr => absurd h hr.2]
  rfl

/-- A report taken twice is taken once. -/
theorem State.takeFrameReport_twice (s : State) : s.takeFrameReport.takeFrameReport = s.takeFrameReport :=
  State.takeFrameReport_none _ (by rw [State.takeFrameReport_eq])

/-- In DOWN the completion of a GET-STATUS, before the reports or after them, is the same. -/
theorem State.finishStatus_reports (h : s.lctl.link = .down) :
    s.finishStatus.takeFrameReport.takeFrameReport.finishStatus = s.takeFrameReport.takeFrameReport.finishStatus := by
  obtain ⟨-, -, -, -, hlctl, -, -, -, -, -, hreading⟩ := s.finishStatus_fields
  have hown := State.ownBeside_comm State.finishStatus_beside s
  rw [State.takeFrameReport_twice, State.takeFrameReport_twice, State.takeFrameReport_down h, State.takeFrameReport_down (by rw [hlctl, h]),
    State.finishStatus_beside, State.finishStatus_beside, State.finishStatus_none _ hreading, hown]

end

/-! ### Counting -/

section
variable {s : State}

/-- A delimiter counted, below the settle figure. -/
theorem State.countSettle_below (h : s.lrx.settleCount + 1 < settleFigure s.lrx.settleCode) :
    s.countSettle 0xC3 = s.settling (s.lrx.settleCount + 1) s.lrx.settleCode := by
  rw [State.countSettle, if_pos (show (0xC3 : Byte) = Config.delimiter from rfl)]
  exact if_neg (Nat.not_le.2 h)

/-- The delimiter that completes the settle count. -/
theorem State.countSettle_full (hl : s.lctl.link = .down) (h : s.lrx.settleCount + 1 = settleFigure s.lrx.settleCode) :
    s.countSettle 0xC3 = (s.settling (s.lrx.settleCount + 1) s.lrx.settleCode).enterTraining := by
  have hcounted : s.countSettle 0xC3 = (s.settling (s.lrx.settleCount + 1) s.lrx.settleCode).settleReport := by
    rw [State.countSettle, if_pos (show (0xC3 : Byte) = Config.delimiter from rfl)]
    exact if_pos (Nat.le_of_eq h.symm)
  rw [hcounted, State.settleReport]
  simp only [State.settling, State.withLrx_fields, hl]

/-- A byte in DOWN is counted. -/
theorem State.takeByte_counted (link : Link) (b : Byte) (h : s.lrx.rx = .notDecoding) : s.takeByte link b = s.countSettle b := by
  simp only [State.takeByte, h]

/-- The byte settles the line exactly when the delimiter completes the count. -/
theorem LinkReceiver.settles_counting {x : LinkReceiver} (h : x.rx = .notDecoding) :
    x.settles 0xC3 = decide (settleFigure x.settleCode ≤ x.settleCount + 1) := by
  simp only [LinkReceiver.settles, h]
  rfl

/-- A receiver that counts ends no body. -/
theorem LinkReceiver.endsBody_counting {x : LinkReceiver} (b : Byte) (h : x.rx = .notDecoding) : x.endsBody b = false := by
  simp only [LinkReceiver.endsBody, h]

/-- A delimiter below the settle figure. -/
theorem exec_delimiter_below (hrx : s.lrx.rx = .notDecoding) (h : s.lrx.settleCount + 1 < settleFigure s.lrx.settleCode) :
    exec (.downlinkByte 0xC3) s = nextOf (s.settling (s.lrx.settleCount + 1) s.lrx.settleCode) := by
  rw [exec_downlinkByte_plain (LinkReceiver.endsBody_counting _ hrx)
    ((LinkReceiver.settles_counting hrx).trans (decide_eq_false (Nat.not_le.2 h))), State.takeByte_counted _ _ hrx,
    State.countSettle_below h]

/-- The delimiter that completes the count meets the end of a handing on. -/
theorem exec_delimiter_full (hl : s.lctl.link = .down) (hrx : s.lrx.rx = .notDecoding)
    (h : s.lrx.settleCount + 1 = settleFigure s.lrx.settleCode) :
    exec (.downlinkByte 0xC3) s = nextOf (s.finishHanding.takeByte s.finishHanding.lctl.link 0xC3) := by
  refine exec_downlinkByte_meets ?_ (by simp [State.movePending, hl])
  rw [LinkReceiver.settles_counting hrx, decide_eq_true (Nat.le_of_eq h.symm), Bool.or_true]

/-- With no body and no entry to UP waiting the delimiter enters TRAINING. -/
theorem exec_delimiter_enters (hl : s.lctl.link = .down) (hrx : s.lrx.rx = .notDecoding)
    (h : s.lrx.settleCount + 1 = settleFigure s.lrx.settleCode) (hh : s.wires.handedOn = none) (hu : s.wires.upHello = none) :
    exec (.downlinkByte 0xC3) s =
      nextOf (s.takeFrameReport.settling (s.lrx.settleCount + 1) s.lrx.settleCode).enterTraining := by
  have hup : s.takeFrameReport.wires.upHello = none := by rw [State.takeFrameReport_eq]; exact hu
  have hlrx : s.takeFrameReport.lrx = s.lrx := s.takeFrameReport_lrx
  rw [exec_delimiter_full hl hrx h, State.finishHanding_noBody hh, State.takeUp_none _ hup,
    State.takeByte_counted _ _ (by rw [hlrx, hrx]), State.countSettle_full (by rw [State.takeFrameReport_link, hl])
      (by rw [hlrx, h]), hlrx]

/-- Delimiters below the settle figure, one after another. -/
theorem execAll_delimiters (hrx : s.lrx.rx = .notDecoding) (hr : s.cmd.reading = none) (n : Nat)
    (h : s.lrx.settleCount + n < settleFigure s.lrx.settleCode) :
    execAll (List.replicate n (.downlinkByte 0xC3)) s = .next (s.settling (s.lrx.settleCount + n) s.lrx.settleCode) := by
  induction n generalizing s with
  | zero => rfl
  | succ n ih =>
    rw [List.replicate_succ, execAll, exec_delimiter_below hrx (by omega),
      nextOf_none (s.settling (s.lrx.settleCount + 1) s.lrx.settleCode) hr]
    dsimp only
    rw [ih (s := s.settling (s.lrx.settleCount + 1) s.lrx.settleCode) hrx hr (by simp only [State.settling, State.withLrx_fields]; omega)]
    simp only [State.settling, State.withLrx, Nat.add_assoc, Nat.add_comm 1 n]

/-- Commands after others. -/
theorem execAll_append {l : List Instr} {t : State} (m : List Instr) (h : execAll l s = .next t) :
    execAll (l ++ m) s = execAll m t := by
  induction l generalizing s with
  | nil =>
    cases h
    rfl
  | cons x l ih =>
    rw [List.cons_append, execAll]
    rw [execAll] at h
    cases hx : exec x s with
    | next u => rw [hx] at h; exact ih h
    | fault f => rw [hx] at h; exact absurd h nofun
    | refused r => rw [hx] at h; exact absurd h nofun

/-- One command alone. -/
theorem execAll_single (i : Instr) (s : State) : execAll [i] s = exec i s := by
  simp only [execAll]
  cases exec i s <;> rfl

/-- The delivery controller's part leaves the receiver's mark alone. -/
theorem State.dlvTakesDown_fall (s : State) : s.dlvTakesDown.wires.falling.lrx = s.wires.falling.lrx := by
  cases hd : s.wires.falling.dlv with
  | false => rw [State.dlvTakesDown_none _ hd]
  | true =>
    rw [State.dlvTakesDown_eq _ hd]
    simp [State.ltxTakesDown_eq, State.finishSendEnd_fields]

/-- Once the receiver has taken the entry to DOWN, the parts are those of the other blocks. -/
theorem State.takeDown_others (h : s.wires.falling.lrx = false) :
    s.takeDown = s.takeDownBy fun b => decide (b ≠ .lrx) := by
  have hfall : s.ltxTakesDown.dlvTakesDown.wires.falling.lrx = false := by
    refine (s.ltxTakesDown.dlvTakesDown_fall).trans ?_
    rw [State.ltxTakesDown_eq]
    exact h
  have hlrx : s.ltxTakesDown.dlvTakesDown.lrxTakesDown = s.ltxTakesDown.dlvTakesDown := by
    rw [State.lrxTakesDown, if_neg (by rw [hfall]; exact Bool.false_ne_true)]
  simp only [State.takeDown, State.takeDownBy, if_true, hlrx]
  rfl

/-- They leave what stands beside them, the receiver and the link controller alone. -/
theorem State.takeDown_beside (x : Beside) (h : s.wires.falling.lrx = false) : (s.beside x).takeDown = s.takeDown.beside x := by
  rw [State.takeDown_others h, State.takeDown_others (s := s.beside x) h, State.takeDownBy_beside x s _ rfl]

/-- They leave the receiver and the link controller alone. -/
theorem State.takeDown_lrx_lctl (h : s.wires.falling.lrx = false) : s.takeDown.lrx = s.lrx ∧ s.takeDown.lctl = s.lctl := by
  have hkept := State.takeDownBy_keeps (fun u => u.wires.falling.lrx = false ∧ u.lrx = s.lrx ∧ u.lctl = s.lctl) (fun _ => true)
    (fun u ⟨hf, hr, hc⟩ => by rw [State.ltxTakesDown_eq]; exact ⟨hf, hr, hc⟩)
    (fun u ⟨hf, hr, hc⟩ => by
      obtain ⟨-, -, -, -, -, hlrx, hlctl, -⟩ := u.dlvTakesDown_fields
      exact ⟨u.dlvTakesDown_fall.trans hf, hlrx.trans hr, hlctl.trans hc⟩)
    (fun u ⟨hf, hr, hc⟩ => by
      rw [State.lrxTakesDown_eq]
      simp [hf, hr, hc])
    (fun u ⟨hf, hr, hc⟩ => by rw [State.cmdTakesDown_eq]; exact ⟨hf, hr, hc⟩)
    (fun u ⟨hf, hr, hc⟩ => by rw [State.alrTakesDown_eq]; exact ⟨hf, hr, hc⟩) s ⟨h, rfl, rfl⟩
  exact hkept.2

/-- The entry to TRAINING after a full run. -/
theorem State.enterTraining_counted (hl : s.lctl.link = .down) (hr : s.cmd.reading = none) (hf : s.wires.falling.lrx = false)
    (m n : Nat) :
    (((s.settling m s.lrx.settleCode).takeFrameReport).settling n s.lrx.settleCode).enterTraining = { s.takeDown with
      lrx := { s.lrx with rx := .between, settleCount := n }
      lctl := { s.lctl with link := .training, silenceTimer := some s.lctl.silenceLimit
                            helloTimer := some s.lctl.helloInterval }
      ltx := { s.takeDown.ltx with helloPending := true }
      wires := { s.takeDown.wires with frameReport := false } } := by
  have hreport : (s.settling m s.lrx.settleCode).takeFrameReport =
      s.beside { s.ownBeside with settleCount := m, frameReport := false } := State.takeFrameReport_down hl
  have htwice : ((s.settling m s.lrx.settleCode).takeFrameReport).takeFrameReport =
      (s.settling m s.lrx.settleCode).takeFrameReport := State.takeFrameReport_twice _
  have hw : ((s.settling m s.lrx.settleCode).takeFrameReport).takeFrameReport.finishStatus =
      s.beside { s.ownBeside with settleCount := m, frameReport := false } := by
    rw [htwice, hreport]
    exact State.finishStatus_none _ hr
  have hdown := State.takeDown_beside (s := s) { s.ownBeside with settleCount := m, frameReport := false } hf
  have hown : s.takeDown.ownBeside = s.ownBeside :=
    (congrArg State.ownBeside (State.takeDown_beside (s := s) s.ownBeside hf) :)
  obtain ⟨hlrx, hlctl⟩ := State.takeDown_lrx_lctl hf
  rw [State.enterTraining_settling, hw, hdown]
  simp only [State.beside, hf, State.withWires_fields, State.withLctl_fields, State.withLrx_fields, State.withChoices_fields,
    Bool.false_eq_true, if_false]
  have hhanded : s.takeDown.wires.handedOn = s.wires.handedOn := congrArg Beside.handedOn hown
  have hretry : s.takeDown.wires.retryReports = s.wires.retryReports := congrArg Beside.retryReports hown
  have hchoices : s.takeDown.choices = s.choices := congrArg Beside.choices hown
  simp only [State.intoTraining, State.settling, State.withWires, State.withLctl, State.withLrx, State.withChoices,
    State.ownBeside, hlrx, hlctl, ← hhanded, ← hretry, ← hchoices]

end

/-- Settles O40. -/
theorem settledLineEntersTraining : Obligations.SettledLineEntersTraining := by
  intro s hl hrx hf hcode hup figure v
  refine ⟨fun hzero hr => ⟨fun n hn => ?_, fun hh => ?_⟩, fun h => exec_delimiter_below hrx h, fun hr hh h => ?_, fun h => ⟨?_, ?_, ?_⟩,
    fun b hb => ?_⟩
  · rw [execAll_delimiters hrx hr n (by rw [hzero, Nat.zero_add]; exact hn), hzero, Nat.zero_add]
    rfl
  · obtain ⟨m, hm⟩ : ∃ m, figure = m + 1 := ⟨figure - 1, by have := Nat.two_pow_pos s.lrx.settleCode; omega⟩
    have hless : s.lrx.settleCount + m < settleFigure s.lrx.settleCode := by
      have hfigure : settleFigure s.lrx.settleCode = figure := rfl
      omega
    rw [hm, List.replicate_succ', execAll_append _ (execAll_delimiters hrx hr m hless), execAll_single, hzero, Nat.zero_add,
      exec_delimiter_enters (s := s.settling m s.lrx.settleCode) hl hrx hm.symm hh hup]
    refine (nextOf_none _ ?_).trans (congrArg Host.Outcome.next (State.enterTraining_counted hl hr hf m (m + 1)))
    have hreading : (((s.settling m s.lrx.settleCode).takeFrameReport).settling (m + 1) s.lrx.settleCode).cmd.reading = none := by
      rw [State.takeFrameReport_eq]
      exact hr
    exact (State.enterTraining_cmd hreading).1
  · obtain ⟨-, -, -, -, hlctl, -, -, hwires, -, -, -⟩ := s.finishStatus_fields
    have hbeside := State.ownBeside_comm State.finishStatus_beside s
    have hlrx : s.finishStatus.lrx.settleCount = s.lrx.settleCount ∧ s.finishStatus.lrx.settleCode = s.lrx.settleCode :=
      ⟨congrArg Beside.settleCount hbeside, congrArg Beside.settleCode hbeside⟩
    have hhanded : s.finishStatus.wires.handedOn = none := (congrArg Beside.handedOn hbeside).trans hh
    have hhello : s.finishStatus.wires.upHello = none := (congrArg Wires.upHello hwires :).trans hup
    rw [exec_delimiter_enters hl hrx h hh hup, exec_delimiter_enters (by rw [hlctl, hl]) (by rw [State.finishStatus_rx, hrx])
      (by rw [hlrx.1, hlrx.2]; exact h) hhanded hhello, hlrx.1, hlrx.2, State.enterTraining_settling,
      State.enterTraining_settling, State.finishStatus_reports hl]
  · rw [exec_delimiter_full hl hrx h, exec_delimiter_full (s := s.takeFrameReport) (by rw [State.takeFrameReport_link, hl])
      (by rw [State.takeFrameReport_lrx, hrx]) (by rw [State.takeFrameReport_lrx, h]; rfl), State.finishHanding_takeFrameReport]
  · intro b i t hi hb hreport hexec
    rw [exec_bodyOfRow hi (.inr hb)] at hexec
    cases hexec
    obtain ⟨-, hwires, -⟩ := (s.handedOff.deliver b).ownersAnswer_waits
    have hhanded : (s.handedOff.deliver b).wires.handedOn = none :=
      State.deliver_keeps (P := fun u => u.wires.handedOn = none) rfl (fun hk he => he.handedOn_none hk) rfl
    have hframe : (s.handedOff.deliver b).wires.frameReport = false :=
      State.deliver_keeps (P := fun u => u.wires.frameReport = false) rfl (fun hk he => he.frameReport_none hk) hreport
    have hhello : (s.handedOff.deliver b).wires.upHello = none :=
      State.deliver_keeps_low (P := fun u => u.wires.upHello = none) rfl (by rw [show s.handedOff.lctl.link = .down from hl]; exact nofun)
        (fun hk he => he.upHello_none hk) hup
    refine ⟨by rw [hwires, hhanded], ?_⟩
    rw [exec_delimiter_full hl hrx h, State.finishHanding_some s b hb hreport,
      State.takeUp_none _ (by rw [hwires, hhello]), exec_downlinkByte_nothing (by rw [hwires, hhanded]) (by rw [hwires, hframe])
        (by rw [hwires, hhello])]
  · intro e hb hreport hr
    have hignored : s.handedOff.deliver (.hello e) = s.handedOff := s.handedOff.deliver_hello_down e hl hreport
    rw [exec_delimiter_full hl hrx h, State.finishHanding_some s _ hb hreport, hignored, State.ownersAnswer_none s.handedOff hr,
      State.takeUp_none s.handedOff hup]
    exact (exec_downlinkByte_nothing (s := s.handedOff) rfl hreport hup).symm
  · rw [exec_downlinkByte_plain (LinkReceiver.endsBody_other _ hb) (LinkReceiver.settles_other _ hb),
      State.takeByte_counted _ _ hrx, State.countSettle, if_neg (show ¬ b = Config.delimiter from hb)]
    rfl

end Sys2Proof.Machine
end

section
/-! PROOFS. The judging of a completed body (Tables 6-6 and 6-12). -/

namespace Sys2Proof.Machine

/-! ### Bodies and their bytes -/

/-- The kind of a body (Table 6-8). -/
def Body.kind : Body → DownKind
  | .hello _    => .hello
  | .ack _      => .ack
  | .nak _      => .nak
  | .command .. => .command

/-- The body has a place at the receiver (R108). -/
def Body.fits (b : Body) : Prop := ∀ tag code args, b = .command tag code args → args.length ≤ 59

/-- How a body with a right check value and length is judged (check 5 of Table 6-6). -/
def Body.verdict (b : Body) (link : Link) : Verdict := if linkAccepts link b.kind then .accepted b else .discarded .state true

/-- How the bytes before a right check value are judged (checks 3 to 5 of Table 6-6). -/
def judgeKind (link : Link) (payload : List Byte) : Verdict :=
  match downKindOf (payload.getD 0 0) with
  | none   => .discarded .kind true
  | some k =>
    if lengthSuits k (payload.length + 2) then
      if linkAccepts link k then .accepted (bodyOf k payload) else .discarded .state true
    else .discarded .length true

section
variable {link : Link} {bytes payload : List Byte} {high low kind : Byte}

/-- A body of fewer than 3 bytes. -/
theorem judgeBody_short (h : bytes.length < 3) : judgeBody link bytes = .discarded .length false := if_pos h

/-- The check value is the last two bytes. -/
theorem judgeBody_checked (hp : payload ≠ []) : judgeBody link (payload ++ [high, low]) =
    if high ++ low ≠ checkValue payload then .discarded .crc false else judgeKind link payload := by
  have hpos : 0 < payload.length := List.length_pos_iff.2 hp
  have hlength : (payload ++ [high, low]).length = payload.length + 2 := by simp
  have htake : (payload ++ [high, low]).take ((payload ++ [high, low]).length - 2) = payload := by simp
  have hdrop : (payload ++ [high, low]).drop ((payload ++ [high, low]).length - 2) = [high, low] := by simp
  have hcheck : be16 (checkValue payload) ≠ [high, low] ↔ high ++ low ≠ checkValue payload := by
    rw [← be16_append high low, not_iff_not]
    exact ⟨fun h => (be16_inj h).symm, fun h => by rw [h]⟩
  unfold judgeBody
  rw [htake, hdrop, hlength, if_neg (by omega)]
  simp only [hcheck]
  rfl

/-- A body with its check value is judged by its kind, its length and the link. -/
theorem judgeBody_withCheck (hp : payload ≠ []) : judgeBody link (withCheck payload) =
    judgeKind link payload := by
  have hcheck : (checkValue payload).extractLsb' 8 8 ++ (checkValue payload).extractLsb' 0 8 = checkValue payload :=
    be16_inj (be16_append _ _)
  exact (judgeBody_checked hp).trans (if_neg (not_not_intro hcheck))

/-- A body as the recorder sends it is judged by the link. -/
theorem judgeBody_downlinkBody (b : Body) (h : b.fits) : judgeBody link (withCheck (downlinkBody b)) = b.verdict link := by
  cases b with
  | hello e => exact judgeBody_withCheck (List.cons_ne_nil _ _)
  | ack n => exact judgeBody_withCheck (List.cons_ne_nil _ _)
  | nak n => exact judgeBody_withCheck (List.cons_ne_nil _ _)
  | command tag code args =>
    have hlength : args.length ≤ 59 := h tag code args rfl
    have hsuits : lengthSuits .command ((downlinkBody (.command tag code args)).length + 2) = true := by
      simp [lengthSuits, downlinkBody]
      omega
    exact (judgeBody_withCheck (payload := downlinkBody (.command tag code args)) (List.cons_ne_nil _ _)).trans (if_pos hsuits)

/-- A body of at least 3 bytes has a check value and something before it. -/
theorem exists_checked (h : 3 ≤ bytes.length) : ∃ payload high low, payload ≠ [] ∧ bytes = payload ++ [high, low] := by
  obtain rfl | ⟨front, low, rfl⟩ := bytes.eq_nil_or_concat
  · exact absurd h (by simp)
  obtain rfl | ⟨payload, high, rfl⟩ := front.eq_nil_or_concat
  · exact absurd h (by simp)
  refine ⟨payload, high, low, ?_, by simp⟩
  rintro rfl
  exact absurd h (by simp)

/-- A known kind of a suitable length is that of a body. -/
theorem exists_body {k : DownKind} (hkind : downKindOf (payload.getD 0 0) = some k)
    (hsuits : lengthSuits k (payload.length + 2) = true) : ∃ b : Body, b.fits ∧ payload = downlinkBody b := by
  have hplain {code : Byte} {b : Seq → Body} (hb : ∀ x, (b x).fits ∧ downlinkBody (b x) = [code, x])
      (hcode : payload.getD 0 0 = code) (hlength : payload.length = 2) : ∃ b : Body, b.fits ∧ payload = downlinkBody b := by
    obtain ⟨x, y, rfl⟩ := List.length_eq_two.1 hlength
    obtain rfl : x = code := hcode
    obtain ⟨hfits, hbytes⟩ := hb y
    exact ⟨b y, hfits, hbytes.symm⟩
  unfold downKindOf at hkind
  split at hkind
  · next hcode =>
    cases hkind
    exact hplain (b := .hello) (fun _ => ⟨nofun, rfl⟩) hcode (by simpa [lengthSuits] using hsuits)
  split at hkind
  · next hcode =>
    cases hkind
    exact hplain (b := .ack) (fun _ => ⟨nofun, rfl⟩) hcode (by simpa [lengthSuits] using hsuits)
  split at hkind
  · next hcode =>
    cases hkind
    exact hplain (b := .nak) (fun _ => ⟨nofun, rfl⟩) hcode (by simpa [lengthSuits] using hsuits)
  split at hkind
  · next hcode =>
    cases hkind
    simp only [lengthSuits, Bool.and_eq_true, decide_eq_true_eq] at hsuits
    match payload, hcode, hsuits with
    | x :: tag :: code :: args, hcode, hsuits =>
      obtain rfl : x = 0x63 := hcode
      refine ⟨.command tag code args, ?_, rfl⟩
      rintro _ _ _ ⟨⟩
      simp only [List.length_cons] at hsuits
      omega
  · exact absurd hkind nofun

/-- A body is discarded whatever the link, or it is one that the recorder sends. -/
theorem judgeBody_cases (bytes : List Byte) :
    (∃ reason received, ∀ link, judgeBody link bytes = .discarded reason received) ∨
    ∃ b : Body, b.fits ∧ bytes = withCheck (downlinkBody b) := by
  by_cases hshort : bytes.length < 3
  case pos => exact .inl ⟨_, _, fun _ => judgeBody_short hshort⟩
  obtain ⟨payload, high, low, hp, rfl⟩ := exists_checked (Nat.le_of_not_lt hshort)
  by_cases hcheck : high ++ low = checkValue payload
  case neg => exact .inl ⟨_, _, fun _ => (judgeBody_checked hp).trans (if_pos hcheck)⟩
  have hbytes : payload ++ [high, low] = withCheck payload := by rw [withCheck, ← hcheck, be16_append]
  rw [hbytes]
  cases hkind : downKindOf (payload.getD 0 0) with
  | none => exact .inl ⟨_, _, fun _ => by rw [judgeBody_withCheck hp, judgeKind, hkind]⟩
  | some k =>
    cases hsuits : lengthSuits k (payload.length + 2) with
    | false => exact .inl ⟨_, _, fun _ => by rw [judgeBody_withCheck hp, judgeKind, hkind]; exact if_neg (by rw [hsuits]; exact nofun)⟩
    | true =>
      obtain ⟨b, hfits, hb⟩ := exists_body hkind hsuits
      exact .inr ⟨b, hfits, by rw [hb]⟩

end


end Sys2Proof.Machine
end

section
/-! PROOFS. The end of a body: its reason, and the handing on of the body before it (sections 6.3 and 7.4). -/

namespace Sys2Proof.Machine

/-! ### The byte that ends a body -/

section
variable {s : State} {bytes : List Byte}

/-- A body that ends is judged. -/
theorem State.takeByte_ends (link : Link) (h : s.lrx.rx = .collecting bytes) :
    s.takeByte link 0xC3 = (s.setRx .between).applyVerdict (judgeBody link bytes) := by
  simp only [State.takeByte, h]
  exact if_pos rfl

/-- The delimiter ends a body in COLLECTING. -/
theorem LinkReceiver.endsBody_collecting {x : LinkReceiver} (h : x.rx = .collecting bytes) : x.endsBody 0xC3 = true := by
  simp only [LinkReceiver.endsBody, h]
  rfl

/-- With nothing waiting the body that ends is judged against the link. -/
theorem exec_ends (h : s.lrx.rx = .collecting bytes) (hh : s.wires.handedOn = none) (hr : s.wires.frameReport = false)
    (hu : s.wires.upHello = none) :
    exec (.downlinkByte 0xC3) s = nextOf ((s.setRx .between).applyVerdict (judgeBody s.lctl.link bytes)) := by
  rw [exec_downlinkByte_nothing hh hr hu, State.takeByte_ends _ h]

/-- With no move to UP waiting it meets the end of the handing on before it. -/
theorem exec_ends_meets (h : s.lrx.rx = .collecting bytes) (hm : s.movePending = false) :
    exec (.downlinkByte 0xC3) s = nextOf (s.finishHanding.takeByte s.finishHanding.lctl.link 0xC3) :=
  exec_downlinkByte_meets (by rw [LinkReceiver.endsBody_collecting h, Bool.true_or]) hm

/-- A body discarded, in the words of the fields. -/
theorem State.applyVerdict_discarded (reason : Discard) (received : Bool) :
    (s.setRx .between).applyVerdict (.discarded reason received) = { s with
      lrx := { s.lrx with rx := .between, discards := s.lrx.discards.count reason }
      alr := if reason.isLine then { s.alr with flags := s.alr.flags ||| 0b001000 } else s.alr
      wires := { s.wires with frameReport := received || s.wires.frameReport } } := by
  cases received <;> cases reason <;> rfl

/-- A body accepted, in the words of the fields. -/
theorem State.applyVerdict_accepted (b : Body) :
    (s.setRx .between).applyVerdict (.accepted b) = { s with
      lrx := { s.lrx with rx := .between }
      wires := { s.wires with handedOn := some b, frameReport := decide (b.kind ≠ .hello) || s.wires.frameReport } } := by
  cases b <;> rfl

end

/-! ### The first failing check -/

section
variable {s : State}

/-- The first part of O48: the checks in order. -/
theorem exec_ends_discarded {bytes : List Byte} (h : s.lrx.rx = .collecting bytes) (hh : s.wires.handedOn = none)
    (hu : s.wires.upHello = none) (hr : s.wires.frameReport = false) {reason : Discard} {received : Bool}
    (hv : judgeBody s.lctl.link bytes = .discarded reason received) :
    exec (.downlinkByte 0xC3) s = nextOf { s with
      lrx := { s.lrx with rx := .between, discards := s.lrx.discards.count reason }
      alr := if reason.isLine then { s.alr with flags := s.alr.flags ||| 0b001000 } else s.alr
      wires := { s.wires with frameReport := received } } := by
  rw [exec_ends h hh hr hu, hv, State.applyVerdict_discarded, hr, Bool.or_false]

end

/-- The HELLO that moves the link to UP does. -/
theorem State.takeHello_moves {s : State} (h : s.lctl.link = .training) (e : Seq) : (s.handedOff.takeHello e).lctl.link = .up := by
  rw [State.takeHello_training h]
  split
  · rfl
  · obtain ⟨-, hlctl, -⟩ := (s.movedUp e).takeUp_fields
    rw [hlctl]
    rfl

/-- What needs an UP link is what TRAINING does not accept and UP does. -/
theorem judgeBody_training {bytes : List Byte}
    (h : ¬ ∃ b : Body, bytes = withCheck (downlinkBody b) ∧ (∀ n, b ≠ .hello n) ∧ b.fits) :
    judgeBody .training bytes = judgeBody .up bytes := by
  obtain ⟨reason, received, hv⟩ | ⟨b, hfits, rfl⟩ := judgeBody_cases bytes
  · rw [hv, hv]
  · rw [judgeBody_downlinkBody b hfits, judgeBody_downlinkBody b hfits]
    cases b with
    | hello e => rfl
    | ack | nak | command => exact absurd ⟨_, rfl, nofun, hfits⟩ h

/-- Any other body is discarded in TRAINING. -/
theorem judgeBody_needsUp {b : Body} (hb : ∀ n, b ≠ .hello n) (hfits : b.fits) :
    judgeBody .training (withCheck (downlinkBody b)) = .discarded .state true := by
  rw [judgeBody_downlinkBody b hfits]
  cases b with
  | hello e => exact absurd rfl (hb e)
  | ack | nak | command => rfl

/-- The end of a body and the HELLO that moves the link to UP: the body that ends is judged after it, or as in TRAINING. -/
theorem exec_ends_moves {s t : State} {bytes : List Byte} {e : Seq} (h : s.lrx.rx = .collecting bytes)
    (hl : s.lctl.link = .training) (hb : s.wires.handedOn = some (.hello e)) (hr : s.wires.frameReport = false)
    (ht : exec (.recorderHello e) (s.withChoices (s.choices + 1)) = .next t) :
    exec (.downlinkByte 0xC3) s = nextOf ((t.takeUp.setRx .between).applyVerdict
      (judgeBody (if Config.judgesFirst s.choices then .training else .up) bytes)) ∧
    exec (.downlinkByte 0xC3) t = nextOf ((t.takeUp.setRx .between).applyVerdict (judgeBody .up bytes)) := by
  let u := (s.withChoices (s.choices + 1)).handedOff
  have hrow : exec (.recorderHello e) (s.withChoices (s.choices + 1)) = nextOf (u.deliver (.hello e)) :=
    exec_bodyOfRow (s := s.withChoices (s.choices + 1)) (i := .recorderHello e) rfl (.inr hb)
  obtain rfl : (u.deliver (.hello e)).ownersAnswer = t := Host.Outcome.next.inj (hrow.symm.trans ht)
  obtain ⟨hrx, hwires, hlctl⟩ := (u.deliver (.hello e)).ownersAnswer_waits
  have hdelivered : (u.deliver (.hello e)).lrx.rx = .collecting bytes := (congrArg LinkReceiver.rx (u.takeHello_lrx e)).trans h
  have hhanded : (u.deliver (.hello e)).wires.handedOn = none :=
    State.deliver_keeps (P := fun x => x.wires.handedOn = none) rfl (fun hk he => he.handedOn_none hk) rfl
  have hreport : (u.deliver (.hello e)).wires.frameReport = false :=
    State.deliver_keeps (P := fun x => x.wires.frameReport = false) rfl (fun hk he => he.frameReport_none hk) hr
  have hlink : (u.deliver (.hello e)).lctl.link = .up := State.takeHello_moves (s := s.withChoices (s.choices + 1)) hl e
  have hfinish : (s.withChoices (s.choices + 1)).finishHanding = (u.deliver (.hello e)).ownersAnswer.takeUp :=
    State.finishHanding_some _ _ hb hr
  generalize (u.deliver (.hello e)).ownersAnswer = t at *
  have hcollecting : t.takeUp.lrx.rx = .collecting bytes := by rw [State.takeUp_lrx, hrx, hdelivered]
  have hup : t.takeUp.lctl.link = .up := by
    obtain ⟨-, hsame, -⟩ := t.takeUp_fields
    rw [hsame, hlctl, hlink]
  constructor
  · have hmove : s.movePending = true := (State.movePending_iff s).2 ⟨hl, e, hb⟩
    have hmeets : exec (.downlinkByte 0xC3) s = nextOf (s.takeByteHandedOn 0xC3) :=
      congrArg nextOf (if_pos (by rw [LinkReceiver.endsBody_collecting h, Bool.true_or]))
    rw [hmeets]
    obtain ⟨hno, -⟩ | ⟨-, ⟨hfirst, hbyte⟩ | ⟨hfirst, hbyte⟩⟩ := s.takeByteHandedOn_cases 0xC3
    · exact absurd (hno.symm.trans hmove) nofun
    · rw [hbyte, hfirst, hfinish, State.takeByte_ends _ hcollecting, if_pos rfl]
    · rw [hbyte, hfirst, hfinish, State.takeByte_ends _ hcollecting, hup, if_neg Bool.false_ne_true]
  · have hnone : t.wires.handedOn = none := by rw [hwires, hhanded]
    rw [exec_ends_meets (hrx.trans hdelivered) (State.movePending_noBody hnone), State.finishHanding_noBody hnone,
      State.takeFrameReport_none _ (by rw [hwires, hreport]), State.takeByte_ends _ hcollecting, hup]

/-- Settles O48. -/
theorem failingBodiesAreDiscarded : Obligations.FailingBodiesAreDiscarded := by
  refine ⟨?_, ?_⟩
  · intro bytes s h hh hu hr counted d
    refine ⟨fun hshort => exec_ends_discarded h hh hu hr (judgeBody_short hshort), ?_⟩
    rintro payload high low rfl hp
    refine ⟨fun hcrc => exec_ends_discarded h hh hu hr ((judgeBody_checked hp).trans (if_pos hcrc)), fun hcrc kind hkind => ?_⟩
    have hjudge := (judgeBody_checked (link := s.lctl.link) hp).trans (if_neg (not_not_intro hcrc))
    have hhead : payload.getD 0 0 = kind := by
      cases payload with
      | nil => exact absurd hkind nofun
      | cons x xs => exact Option.some.inj hkind
    rw [judgeKind, hhead] at hjudge
    have hlength : (payload ++ [high, low]).length = payload.length + 2 := by simp
    rw [hlength]
    refine ⟨fun hnot => ?_, fun hmem hne => ?_, fun hcommand hne => ?_, fun hstate => ?_⟩
    · have hnone : downKindOf kind = none := by
        simp only [List.mem_cons, List.not_mem_nil, or_false, not_or] at hnot
        obtain ⟨h68, h61, h6E, h63⟩ := hnot
        exact (if_neg h68).trans ((if_neg h61).trans ((if_neg h6E).trans (if_neg h63)))
      rw [hnone] at hjudge
      exact exec_ends_discarded h hh hu hr hjudge
    · have hsuits : decide (payload.length + 2 = 4) = false := decide_eq_false hne
      refine exec_ends_discarded h hh hu hr (reason := .length) (received := true) (hjudge.trans ?_)
      simp only [List.mem_cons, List.not_mem_nil, or_false] at hmem
      obtain rfl | rfl | rfl := hmem <;> exact if_neg (by rw [Bool.not_eq_true]; exact hsuits)
    · subst hcommand
      refine exec_ends_discarded h hh hu hr (reason := .length) (received := true) (hjudge.trans (if_neg ?_))
      simp only [lengthSuits, Bool.and_eq_true, decide_eq_true_eq]
      omega
    · refine exec_ends_discarded h hh hu hr (reason := .state) (received := true) (hjudge.trans ?_)
      obtain ⟨k, hk, hsuits, haccepts⟩ : ∃ k, downKindOf kind = some k ∧ lengthSuits k (payload.length + 2) = true ∧
          linkAccepts s.lctl.link k = false := by
        have hlow (k : DownKind) (hl : s.lctl.link ≠ .up) (hk : k ≠ .hello) : linkAccepts s.lctl.link k = false := by
          cases hlink : s.lctl.link <;> cases k <;> simp_all [linkAccepts]
        obtain ⟨hl, hmem, hn⟩ | ⟨hl, rfl, hleast, hmost⟩ | ⟨hl, rfl, hn⟩ := hstate
        · simp only [List.mem_cons, List.not_mem_nil, or_false] at hmem
          obtain rfl | rfl := hmem
          · exact ⟨.ack, rfl, decide_eq_true hn, hlow _ hl nofun⟩
          · exact ⟨.nak, rfl, decide_eq_true hn, hlow _ hl nofun⟩
        · exact ⟨.command, rfl, by simp [lengthSuits, hleast, hmost], hlow _ hl nofun⟩
        · exact ⟨.hello, rfl, decide_eq_true hn, by rw [hl]; rfl⟩
      rw [hk]
      dsimp only
      rw [if_pos hsuits, haccepts]
      rfl
  · intro bytes e s t h hl hb hr hexec v needsUp
    obtain ⟨hs, ht⟩ := exec_ends_moves h hl hb hr hexec
    refine ⟨fun hfirst hneeds => ?_, fun hlate => ?_⟩
    · obtain ⟨b, rfl, hb, hfits⟩ := hneeds
      rw [hs, if_pos hfirst, judgeBody_needsUp hb hfits, State.applyVerdict_discarded]
      rfl
    · rw [hs, ht]
      cases hfirst : Config.judgesFirst s.choices with
      | false => rw [if_neg Bool.false_ne_true]
      | true =>
        have hnot : ¬ needsUp := hlate.resolve_left (by rw [hfirst]; exact nofun)
        rw [if_pos rfl, judgeBody_training hnot]

end Sys2Proof.Machine
end

section
/-! PROOFS. A downlink frame, byte by byte, and the handing on of its body (sections 6.1 to 6.4). -/

namespace Sys2Proof.Machine

/-! ### Collecting -/

/-- The receiver between frames, or with these bytes of a body collected. -/
def State.collected (bytes : List Byte) (s : State) : State :=
  s.setRx (if bytes = [] then .between else .collecting bytes)

section
variable {s : State}

/-- A byte other than the delimiter is taken by the decoding state. -/
theorem exec_otherByte {b : Byte} (hb : b ≠ 0xC3) (hr : s.cmd.reading = none) {rx : RxState}
    (h : s.takeByte s.lctl.link b = s.setRx rx) : exec (.downlinkByte b) s = .next (s.setRx rx) := by
  rw [exec_downlinkByte_plain (LinkReceiver.endsBody_other _ hb) (LinkReceiver.settles_other _ hb), h]
  exact nextOf_none _ hr

/-- With a place free one byte more is collected. -/
theorem collect_room {bytes : List Byte} (h : bytes.length < 64) (b : Byte) : collect bytes b = .collecting (bytes ++ [b]) := by
  rw [collect_eq, if_pos h]

/-- The bytes of one body byte on the line. -/
theorem execAll_bodyByte {bytes : List Byte} (h : bytes.length < 64) (hr : s.cmd.reading = none) (b : Byte) :
    execAll ((escapeBody [b]).map .downlinkByte) (s.collected bytes) = .next (s.collected (bytes ++ [b])) := by
  have hnext : s.collected (bytes ++ [b]) = s.setRx (.collecting (bytes ++ [b])) := by
    rw [State.collected, if_neg (by simp)]
  rw [hnext]
  by_cases hplain : b = 0xC3 ∨ b = 0xCC
  case neg =>
    obtain ⟨hC3, hCC⟩ := not_or.1 hplain
    have hline : escapeBody [b] = [b] := by
      have hres : isReserved b = false := by
        simp only [isReserved, Bool.or_eq_false_iff, beq_eq_false_iff_ne]
        exact ⟨hC3, hCC⟩
      simp [escapeBody, hres]
    rw [hline, List.map_singleton, execAll_single]
    refine exec_otherByte (s := s.collected bytes) hC3 hr ?_
    by_cases hnil : bytes = []
    · subst hnil
      exact (if_neg hC3).trans (if_neg hCC)
    · rw [State.collected, if_neg hnil, ← collect_room h b]
      exact (if_neg hC3).trans (if_neg hCC)
  have hescape : (s.collected bytes).takeByte s.lctl.link 0xCC = s.setRx (.escaped bytes) := by
    by_cases hnil : bytes = []
    · subst hnil; rfl
    · rw [State.collected, if_neg hnil]; rfl
  have hpair (second : Byte) (hsecond : second ≠ 0xC3) (hvalue : unescaped second = some b) :
      execAll ([0xCC, second].map .downlinkByte) (s.collected bytes) = .next (s.setRx (.collecting (bytes ++ [b]))) := by
    have hsecondByte : (s.setRx (.escaped bytes)).takeByte s.lctl.link second = s.setRx (.collecting (bytes ++ [b])) := by
      refine (if_neg hsecond).trans ?_
      rw [hvalue]
      exact congrArg (fun x => s.setRx x) (collect_room h b)
    rw [List.map_cons, execAll, exec_otherByte (s := s.collected bytes) (by decide) hr hescape]
    exact (execAll_single _ _).trans (exec_otherByte (s := s.setRx (.escaped bytes)) hsecond hr hsecondByte)
  obtain rfl | rfl := hplain
  · exact hpair 0xD3 (by decide) rfl
  · exact hpair 0xDC (by decide) rfl

/-- The bytes of a body on the line are collected. -/
theorem execAll_body {bytes more : List Byte} (h : (bytes ++ more).length ≤ 64) (hr : s.cmd.reading = none) :
    execAll ((escapeBody more).map .downlinkByte) (s.collected bytes) = .next (s.collected (bytes ++ more)) := by
  induction more generalizing bytes with
  | nil => simp [escapeBody, execAll]
  | cons b more ih =>
    have hsplit : escapeBody (b :: more) = escapeBody [b] ++ escapeBody more := by simp [escapeBody]
    have hroom : bytes.length < 64 := by
      simp only [List.length_append, List.length_cons] at h
      omega
    rw [hsplit, List.map_append, execAll_append _ (execAll_bodyByte hroom hr b), ih (by simpa using h)]
    simp

/-- A body as the recorder sends it has a place at the receiver. -/
theorem withCheck_downlinkBody_length {b : Body} (h : b.fits) : (withCheck (downlinkBody b)).length ≤ 64 := by
  cases b with
  | command tag code args =>
    have hlength : args.length ≤ 59 := h tag code args rfl
    simp only [withCheck, downlinkBody, be16, List.length_append, List.length_cons, List.length_nil]
    omega
  | hello | ack | nak => exact (by decide : 4 ≤ 64)

end

/-! ### Handing on -/

section
variable {s : State} {b : Body}

/-- The body that ends is accepted and handed on. -/
theorem exec_ends_accepted (hl : s.lctl.link = .up ∨ s.lctl.link = .training ∧ ∃ e, b = .hello e)
    (h : s.lrx.rx = .collecting (withCheck (downlinkBody b))) (hh : s.wires.handedOn = none) (hu : s.wires.upHello = none)
    (hr : s.wires.frameReport = false) (hfits : b.fits) :
    exec (.downlinkByte 0xC3) s = nextOf { s with
      lrx := { s.lrx with rx := .between }
      wires := { s.wires with handedOn := some b, frameReport := decide (b.kind ≠ .hello) } } := by
  have haccepts : linkAccepts s.lctl.link b.kind = true := by
    obtain hl | ⟨hl, e, rfl⟩ := hl
    · rw [hl]
      cases b <;> rfl
    · rw [hl]
      rfl
  rw [exec_ends h hh hr hu, judgeBody_downlinkBody b hfits, Body.verdict, if_pos haccepts, State.applyVerdict_accepted, hr,
    Bool.or_false]

/-- The report is one of what stands beside. -/
theorem State.takeFrameReport_literal (s : State) : s.takeFrameReport = s.beside { s.ownBeside with
    frameReport := false
    silenceTimer :=
      if s.wires.frameReport ∧ s.lctl.link ≠ .down then some s.lctl.silenceLimit else s.lctl.silenceTimer } := by
  rw [State.takeFrameReport_eq]
  split <;> rfl

/-- The report and the entry to UP wait independently. -/
theorem State.takeUp_takeFrameReport (s : State) : s.takeUp.takeFrameReport.takeUp = s.takeFrameReport.takeUp := by
  have hbeside := fun x s => State.takeUp_beside x s
  obtain ⟨hwires, hlctl, -⟩ := s.takeUp_fields
  have hframe : s.takeUp.wires.frameReport = s.wires.frameReport := (congrArg Wires.frameReport hwires :)
  rw [State.takeFrameReport_literal s.takeUp, State.takeFrameReport_literal s, State.ownBeside_comm hbeside, hlctl, hframe,
    State.takeUp_beside, State.takeUp_beside, State.takeUp_takeUp]

/-- A report taken before the end of a body is no longer there. -/
theorem exec_ends_report {bytes : List Byte} (h : s.lrx.rx = .collecting bytes) :
    exec (.downlinkByte 0xC3) s = exec (.downlinkByte 0xC3) s.takeFrameReport := by
  have hpending : s.takeFrameReport.movePending = s.movePending := by
    rw [State.movePending, State.movePending, State.takeFrameReport_link, State.takeFrameReport_eq]
  have hchoices : s.takeFrameReport.choices = s.choices := by rw [State.takeFrameReport_eq]
  have hdrawn (n : Nat) : s.takeFrameReport.withChoices n = (s.withChoices n).takeFrameReport := by
    rw [State.takeFrameReport_eq, State.takeFrameReport_eq]
    rfl
  have hsame : (if s.movePending then s.takeFrameReport.withChoices (s.choices + 1) else s.takeFrameReport).finishHanding =
      (if s.movePending then s.withChoices (s.choices + 1) else s).finishHanding := by
    cases s.movePending with
    | false => exact s.finishHanding_takeFrameReport
    | true => exact (congrArg State.finishHanding (hdrawn _)).trans (s.withChoices (s.choices + 1)).finishHanding_takeFrameReport
  have hmeets (u : State) (hu : u.lrx.rx = .collecting bytes) : exec (.downlinkByte 0xC3) u = nextOf (u.takeByteHandedOn 0xC3) :=
    congrArg nextOf (if_pos (by rw [LinkReceiver.endsBody_collecting hu, Bool.true_or]))
  rw [hmeets s h, hmeets s.takeFrameReport (by rw [State.takeFrameReport_lrx, h]), State.takeByteHandedOn,
    State.takeByteHandedOn, hpending, hchoices, hsame, State.takeFrameReport_link]

end

/-- Settles O46. -/
theorem downlinkFrameIsHandedOn : Obligations.DownlinkFrameIsHandedOn := by
  intro b s handed
  have hhanded (u : State) : ({ u with wires := { u.wires with
      handedOn := some b, frameReport := decide (b.kind ≠ .hello) } } : State) = handed u := by
    cases b <;> rfl
  refine ⟨fun hl hrx hh hu hr hread hfits => ?_, fun hl hrx hh hu hr hfits => ?_,
    fun i c hi hb hne => exec_bodyOfRow_other hi hb hne, fun i bytes t hi hb hexec => ?_,
    fun bytes hrx => ⟨exec_ends_report hrx, fun hh => ?_⟩, fun hr => ?_⟩
  · have hbetween : s.collected [] = s := by
      rw [State.collected, if_pos rfl, State.setRx, ← hrx]
      rfl
    have hbody := execAll_body (s := s) (bytes := []) (more := withCheck (downlinkBody b)) (withCheck_downlinkBody_length hfits) hread
    rw [hbetween, List.nil_append] at hbody
    rw [downlinkLine, List.map_append, execAll_append _ hbody]
    refine (execAll_single _ _).trans ?_
    have hne : withCheck (downlinkBody b) ≠ [] := by cases b <;> exact nofun
    have hcollected : s.collected (withCheck (downlinkBody b)) = s.setRx (.collecting (withCheck (downlinkBody b))) := by
      rw [State.collected, if_neg hne]
    have hends := exec_ends_accepted (s := s.setRx (.collecting (withCheck (downlinkBody b)))) hl rfl hh hu hr hfits
    rw [hcollected, hends, ← hhanded, nextOf_none]
    · have hlrx : ({ s.lrx with rx := .between } : LinkReceiver) = s.lrx := by rw [← hrx]
      simp only [State.setRx, State.withLrx, hlrx]
    · exact hread
  · rw [exec_ends_accepted hl hrx hh hu hr hfits, ← hhanded]
  · rw [exec_bodyOfRow hi (.inr hb)] at hexec
    obtain rfl : (s.handedOff.deliver b).ownersAnswer = t := Host.Outcome.next.inj hexec
    obtain ⟨hsame, hwires, -⟩ := (s.handedOff.deliver b).ownersAnswer_waits
    have hnone : (s.handedOff.deliver b).ownersAnswer.wires.handedOn = none := by
      rw [hwires]
      exact State.deliver_keeps (P := fun x => x.wires.handedOn = none) rfl (fun hk he => he.handedOn_none hk) rfl
    refine ⟨hnone, fun hrx hr hplain => ?_⟩
    have hreport : (s.handedOff.deliver b).ownersAnswer.wires.frameReport = false := by
      rw [hwires]
      exact State.deliver_keeps (P := fun x => x.wires.frameReport = false) rfl (fun hk he => he.frameReport_none hk) hr
    have hcollecting : (s.handedOff.deliver b).ownersAnswer.lrx.rx = .collecting bytes := by
      rw [hsame, State.deliver_rx (s := s.handedOff) b (by rw [show s.handedOff.lrx.rx = _ from hrx]; exact nofun)]
      exact hrx
    have hmove : s.movePending = false := by
      rw [← Bool.not_eq_true, State.movePending_iff]
      rintro ⟨hl, e, he⟩
      exact hplain hl e (Option.some.inj (hb.symm.trans he))
    rw [exec_ends_meets hrx hmove, State.finishHanding_some s b hb hr, exec_ends_meets hcollecting (State.movePending_noBody hnone),
      State.finishHanding_noBody hnone, State.takeFrameReport_none _ hreport]
  · have hnone : s.takeUp.wires.handedOn = none := by
      obtain ⟨hwires, -⟩ := s.takeUp_fields
      rw [hwires]
      exact hh
    rw [exec_ends_meets hrx (State.movePending_noBody hh), exec_ends_meets (by rw [State.takeUp_lrx, hrx])
      (State.movePending_noBody hnone), State.finishHanding_noBody hh, State.finishHanding_noBody hnone,
      State.takeUp_takeFrameReport]
  · rw [State.takeFrameReport_eq]
    by_cases hl : s.lctl.link = .down
    · rw [if_neg fun h => h.2 hl, if_pos hl]
    · rw [if_pos ⟨hr, hl⟩, if_neg hl]

end Sys2Proof.Machine
end

section
/-! PROOFS. GET_PARAM and SET_PARAM (section 9.4.2, Table 9-5). -/

namespace Sys2Proof.Machine

/-! ### The sixteen parameters -/

/-- Table 9-5: each id with its parameter, its least and its greatest value. -/
def paramRows : List (Byte × Param × Nat × Nat) :=
  [(0x01, .frameLimit, 256, 4096), (0x02, .idleClose, 0, 65535), (0x03, .tickShift, 0, 15), (0x04, .sendWindow, 1, 16),
   (0x05, .ackTimeout, 1, 65535), (0x06, .retryLimit, 1, 15), (0x07, .stallLimit, 1, 65535), (0x08, .settleCode, 0, 3),
   (0x09, .helloInterval, 1, 65535), (0x0A, .silenceLimit, 1, 65535), (0x0B, .filterCode, 0, 7),
   (0x0C, .marker .m0, 0, 7), (0x0D, .marker .m1, 0, 7), (0x0E, .marker .m2, 0, 7), (0x0F, .marker .m3, 0, 7),
   (0x10, .alertEnable, 0, 63)]

/-- A row of Table 9-5 is that of its id. -/
theorem paramRows_sound : ∀ row ∈ paramRows,
    paramOf row.1 = some row.2.1 ∧ paramLeast row.2.1 = row.2.2.1 ∧ paramGreatest row.2.1 = row.2.2.2 := by decide

/-- An id without a row names no parameter. -/
theorem paramOf_none {id : Byte} (h : ∀ row ∈ paramRows, row.1 ≠ id) : paramOf id = none := by
  have hlisted : ∀ b : Byte, paramOf b = none ∨ b ∈ paramRows.map (·.1) := by decide
  refine (hlisted id).resolve_right fun hmem => ?_
  obtain ⟨row, hrow, he⟩ := List.mem_map.1 hmem
  exact h row hrow he

/-- SETTLE-CODE is the parameter of id 08h. -/
theorem paramOf_settleCode : ∀ id : Byte, paramOf id = some .settleCode ↔ id = 0x08 := by decide

/-! ### SETTLE-CODE (R120) -/

section
variable {s : State} {v : Nat}

/-- A receiver that decodes holds a new SETTLE-CODE. -/
theorem State.setSettleCode_decoding (h : s.lrx.rx ≠ .notDecoding) : s.setSettleCode v = s.settling s.lrx.settleCount v := by
  unfold State.setSettleCode
  dsimp only
  split
  · next hrx => exact absurd hrx h
  all_goals rfl

/-- A receiver that counts makes a settle report if the count stands at the new figure. -/
theorem State.setSettleCode_counting (h : s.lrx.rx = .notDecoding) :
    s.setSettleCode v = if settleFigure v ≤ s.lrx.settleCount then (s.settling s.lrx.settleCount v).settleReport
      else s.settling s.lrx.settleCount v := by
  unfold State.setSettleCode
  dsimp only
  split
  · rfl
  all_goals
    next hrx => exact absurd (h.symm.trans hrx) nofun

/-- A new SETTLE-CODE is held, and nothing else happens unless the count stands at the new figure in DOWN. -/
theorem State.setSettleCode_held
    (h : s.lrx.rx ≠ .notDecoding ∨ s.lctl.link ≠ .down ∨ s.lrx.settleCount < settleFigure v) :
    s.setSettleCode v = s.settling s.lrx.settleCount v := by
  by_cases hrx : s.lrx.rx = .notDecoding
  case neg => exact State.setSettleCode_decoding hrx
  rw [State.setSettleCode_counting hrx]
  refine ite_eq_right_iff.2 fun hfull => ?_
  have hlink : s.lctl.link ≠ .down := (h.resolve_left (not_not_intro hrx)).resolve_right (Nat.not_lt.2 hfull)
  have hlctl : (s.settling s.lrx.settleCount v).lctl.link = s.lctl.link := rfl
  unfold State.settleReport
  rw [hlctl]
  cases hl : s.lctl.link with
  | down => exact absurd hl hlink
  | training | up => rfl

/-- In DOWN a receiver that counts and has reached the new figure settles at once. -/
theorem State.setSettleCode_settles (hrx : s.lrx.rx = .notDecoding) (hl : s.lctl.link = .down)
    (h : settleFigure v ≤ s.lrx.settleCount) : s.setSettleCode v = (s.settling s.lrx.settleCount v).enterTraining := by
  have hlctl : (s.settling s.lrx.settleCount v).lctl.link = .down := hl
  rw [State.setSettleCode_counting hrx, if_pos h]
  unfold State.settleReport
  rw [hlctl]

/-- The frame-received report has nothing to do with the entries to DOWN. -/
theorem State.takeDown_report (s : State) :
    (s.withWires { s.wires with frameReport := false }).takeDown =
      s.takeDown.withWires { s.takeDown.wires with frameReport := false } := by
  have hltx (u : State) : (u.withWires { u.wires with frameReport := false }).ltxTakesDown =
      u.ltxTakesDown.withWires { u.ltxTakesDown.wires with frameReport := false } := by
    rw [State.ltxTakesDown_eq, State.ltxTakesDown_eq]
    rfl
  have hdlv (u : State) : (u.withWires { u.wires with frameReport := false }).dlvTakesDown =
      u.dlvTakesDown.withWires { u.dlvTakesDown.wires with frameReport := false } :=
    calc (u.withWires { u.wires with frameReport := false }).dlvTakesDown
      _ = u.dlvTakesDown.beside { u.ownBeside with frameReport := false } :=
        State.dlvTakesDown_beside (s := u) { u.ownBeside with frameReport := false }
      _ = u.dlvTakesDown.beside { u.dlvTakesDown.ownBeside with frameReport := false } := by
        rw [State.ownBeside_comm fun x s => State.dlvTakesDown_beside x s]
      _ = u.dlvTakesDown.withWires { u.dlvTakesDown.wires with frameReport := false } := rfl
  have hlrx (u : State) : (u.withWires { u.wires with frameReport := false }).lrxTakesDown =
      u.lrxTakesDown.withWires { u.lrxTakesDown.wires with frameReport := false } := by
    rw [State.lrxTakesDown_eq, State.lrxTakesDown_eq]
    rfl
  have hcmd (u : State) : (u.withWires { u.wires with frameReport := false }).cmdTakesDown =
      u.cmdTakesDown.withWires { u.cmdTakesDown.wires with frameReport := false } := by
    rw [State.cmdTakesDown_eq, State.cmdTakesDown_eq]
    rfl
  have halr (u : State) : (u.withWires { u.wires with frameReport := false }).alrTakesDown =
      u.alrTakesDown.withWires { u.alrTakesDown.wires with frameReport := false } := by
    rw [State.alrTakesDown_eq, State.alrTakesDown_eq]
    rfl
  simp only [State.takeDown, State.takeDownBy, if_true, hltx, hdlv, hlrx, hcmd, halr]

/-- Nor has the link controller. -/
theorem State.takeDown_lctl (s : State) : s.takeDown.lctl = s.lctl := by
  refine State.takeDownBy_keeps (fun u => u.lctl = s.lctl) _ (fun u h => ?_) (fun u h => ?_) (fun u h => ?_) (fun u h => ?_)
    (fun u h => ?_) s rfl
  · rw [State.ltxTakesDown_eq]; exact h
  · obtain ⟨-, -, -, -, -, -, hlctl, -⟩ := u.dlvTakesDown_fields
    exact hlctl.trans h
  · rw [State.lrxTakesDown_eq]; exact h
  · rw [State.cmdTakesDown_eq]; exact h
  · rw [State.alrTakesDown_eq]; exact h

/-- Nor is a GET-STATUS begun or ended. -/
theorem State.takeDown_reading (s : State) : s.takeDown.cmd.reading = s.cmd.reading := by
  refine State.takeDownBy_keeps (fun u => u.cmd.reading = s.cmd.reading) _ (fun u h => ?_) (fun u h => ?_) (fun u h => ?_)
    (fun u h => ?_) (fun u h => ?_) s rfl
  · rw [State.ltxTakesDown_eq]; exact h
  · obtain ⟨-, -, -, -, -, -, -, hcmd, -⟩ := u.dlvTakesDown_fields
    exact (congrArg CommandUnit.reading hcmd).trans h
  · rw [State.lrxTakesDown_eq]; exact h
  · rw [State.cmdTakesDown_eq]; exact h
  · rw [State.alrTakesDown_eq]; exact h

/-- The entry to TRAINING in DOWN, with no GET-STATUS being executed. -/
theorem State.enterTraining_down (hl : s.lctl.link = .down) (hr : s.cmd.reading = none) :
    s.enterTraining = { s.takeDown with
      lrx := { s.takeDown.lrx with rx := .between }
      lctl := { s.takeDown.lctl with
        link := .training, silenceTimer := some s.takeDown.lctl.silenceLimit, helloTimer := some s.takeDown.lctl.helloInterval }
      ltx := { s.takeDown.ltx with helloPending := true }
      wires := { s.takeDown.wires with frameReport := false } } := by
  have hreport : s.takeFrameReport = s.withWires { s.wires with frameReport := false } := by
    rw [State.takeFrameReport_eq, if_neg fun h => h.2 hl]
    rfl
  have hfinish : s.takeFrameReport.finishStatus = s.withWires { s.wires with frameReport := false } := by
    rw [State.finishStatus_none _ (by rw [hreport]; exact hr), hreport]
  rw [State.enterTraining, hfinish, State.takeDown_report]
  generalize s.takeDown = w
  rfl

end

/-! ### The two commands -/

section
variable {s : State} {tag id : Byte}

/-- GET_PARAM of a parameter. -/
theorem exec_getParam {p : Param} (ha : s.acceptsTag tag) (hn : s.isNext (.command tag 0x04 [id])) (hp : paramOf id = some p) :
    exec (.getParam tag [id]) s = .next (s.handedOff.replied tag 0x04 .ok (be32 (BitVec.ofNat 32 (s.paramValue p)))) := by
  refine exec_command_run (t := s.running) ha rfl rfl rfl hn ?_ rfl rfl
  have harg : argByte [id] 0 = id := rfl
  rw [runGetParam, harg, hp]
  cases p <;> rfl

/-- GET_PARAM of an id that names none. -/
theorem exec_getParam_unlisted (ha : s.acceptsTag tag) (hn : s.isNext (.command tag 0x04 [id])) (hp : paramOf id = none) :
    exec (.getParam tag [id]) s = .next (s.handedOff.replied tag 0x04 .badValue []) := by
  refine exec_command_run (t := s.running) ha rfl rfl rfl hn ?_ rfl rfl
  have harg : argByte [id] 0 = id := rfl
  rw [runGetParam, harg, hp]

variable {value : BitVec 32}

/-- The argument word of a SET_PARAM. -/
theorem argWord_value (id : Byte) (value : BitVec 32) : argWord (id :: be32 value) 1 = value := word_of_bytes value

/-- SET_PARAM of an id that names none. -/
theorem exec_setParam_unlisted (ha : s.acceptsTag tag) (hn : s.isNext (.command tag 0x05 (id :: be32 value)))
    (hp : paramOf id = none) :
    exec (.setParam tag (id :: be32 value)) s = .next (s.handedOff.replied tag 0x05 .badValue []) := by
  refine exec_command_run (t := s.running) ha rfl rfl rfl hn ?_ rfl rfl
  have harg : argByte (id :: be32 value) 0 = id := rfl
  rw [runSetParam, harg, hp]

/-- SET_PARAM with a value out of the range. -/
theorem exec_setParam_outOfRange {p : Param} (ha : s.acceptsTag tag) (hn : s.isNext (.command tag 0x05 (id :: be32 value)))
    (hp : paramOf id = some p) (hv : paramInRange p value.toNat = false) :
    exec (.setParam tag (id :: be32 value)) s = .next (s.handedOff.replied tag 0x05 .badValue []) := by
  refine exec_command_run (t := s.running) ha rfl rfl rfl hn ?_ rfl rfl
  have harg : argByte (id :: be32 value) 0 = id := rfl
  rw [runSetParam, harg, hp]
  dsimp only
  rw [argWord_value, hv]
  rfl

/-- SET_PARAM with a value of the range. -/
theorem runSetParam_inRange {p : Param} (hp : paramOf id = some p) (hv : paramInRange p value.toNat = true) (u : State) :
    runSetParam (id :: be32 value) u = done (u.setParamValue p value.toNat) .ok [] := by
  have harg : argByte (id :: be32 value) 0 = id := rfl
  rw [runSetParam, harg, hp]
  dsimp only
  rw [argWord_value, hv]
  rfl

/-- A value taken, when the link does not settle. -/
theorem exec_setParam_taken {p : Param} (ha : s.acceptsTag tag) (hn : s.isNext (.command tag 0x05 (id :: be32 value)))
    (hp : paramOf id = some p) (hv : paramInRange p value.toNat = true)
    (hsettle : p = .settleCode → s.lrx.rx ≠ .notDecoding ∨ s.lctl.link ≠ .down ∨ s.lrx.settleCount < settleFigure value.toNat) :
    exec (.setParam tag (id :: be32 value)) s = .next ((s.handedOff.setParamValue p value.toNat).replied tag 0x05 .ok []) := by
  have hrun : s.running.setParamValue p value.toNat = (s.handedOff.setParamValue p value.toNat).executing ∧
      (s.handedOff.setParamValue p value.toNat).lctl.link = s.lctl.link ∧
      (s.handedOff.setParamValue p value.toNat).wires.falling = s.wires.falling := by
    by_cases hcode : p = .settleCode
    · subst hcode
      have hheld := hsettle rfl
      rw [show s.running.setParamValue .settleCode value.toNat = s.running.setSettleCode value.toNat from rfl,
        show s.handedOff.setParamValue .settleCode value.toNat = s.handedOff.setSettleCode value.toNat from rfl,
        State.setSettleCode_held (s := s.running) hheld, State.setSettleCode_held (s := s.handedOff) hheld]
      exact ⟨rfl, rfl, rfl⟩
    · cases p
      case settleCode => exact absurd rfl hcode
      all_goals exact ⟨rfl, rfl, rfl⟩
  obtain ⟨hrun, hlink, hfall⟩ := hrun
  exact exec_command_run (t := (s.handedOff.setParamValue p value.toNat).executing) ha rfl rfl rfl hn
    (by rw [runSetParam_inRange hp hv, hrun]) hlink hfall

/-- A SETTLE-CODE with which the line settles. -/
theorem exec_setParam_settles (ha : s.acceptsTag tag) (hn : s.isNext (.command tag 0x05 (id :: be32 value)))
    (hp : paramOf id = some .settleCode) (hv : paramInRange .settleCode value.toNat = true) (hrx : s.lrx.rx = .notDecoding)
    (hl : s.lctl.link = .down) (hfull : settleFigure value.toNat ≤ s.lrx.settleCount) :
    let w := (s.handedOff.settling s.lrx.settleCount value.toNat).takeDown
    exec (.setParam tag (id :: be32 value)) s = .next { w with
      lrx := { w.lrx with rx := .between }
      lctl := { s.lctl with link := .training, silenceTimer := some s.lctl.silenceLimit
                            helloTimer := some s.lctl.helloInterval }
      ltx := { w.ltx with helloPending := true }
      wires := { w.wires with frameReport := false }
      cmd := { w.cmd with execState := .ready, lastTag := some ⟨tag, 0x05, .ok, []⟩ } } := by
  intro w
  have hr : s.cmd.reading = none := ha.2.2.2
  let u := s.handedOff.settling s.lrx.settleCount value.toNat
  have hset : s.running.setParamValue .settleCode value.toNat = u.enterTraining.executing :=
    (State.setSettleCode_settles (s := s.running) hrx hl hfull).trans (State.enterTraining_executing (s := u) hr)
  have hlctl : w.lctl = s.lctl := State.takeDown_lctl u
  have hfall : w.wires.falling = FallMarks.none := State.takeDown_taken u
  have hoff : u.enterTraining.offLine = true := by
    rw [State.enterTraining_down (s := u) hl hr]
    exact (State.offLine_iff _).2 ⟨nofun, congrArg FallMarks.cmd hfall⟩
  have hrun : runCode tag 0x05 (id :: be32 value) s.handedOff = done u.enterTraining.executing .ok [] := by
    refine (withLength_right 5 (id :: be32 value) (runSetParam (id :: be32 value)) s.handedOff rfl).trans ?_
    rw [runSetParam_inRange hp hv]
    exact congrArg (fun x => done x .ok []) hset
  rw [exec_command (i := .setParam tag (id :: be32 value)) rfl, State.takeCommand_accepted _ _ _ _ s hn ha, hrun,
    State.formReply_done, State.giveReply_executing, State.giveReply_eq, hoff, if_pos rfl, nextOf_none _ rfl,
    State.enterTraining_down (s := u) hl hr, ← hlctl]
  have hread : w.cmd.reading = none := (State.takeDown_reading u).trans hr
  have hw : w = u.takeDown := rfl
  rw [← hw, ← hread]
  clear_value w
  rfl

end

/-- Settles O54. -/
theorem parametersAreReadAndWritten : Obligations.ParametersAreReadAndWritten := by
  intro tag id s ha u held taken
  have hheld (p : Param) : held p = s.paramValue p := by
    cases p
    case marker pin => cases pin <;> rfl
    all_goals rfl
  have htaken {p : Param} (v : Nat) (hp : p ≠ .settleCode) : taken p v = s.handedOff.setParamValue p v := by
    cases p
    case settleCode => exact absurd rfl hp
    case marker pin => cases pin <;> rfl
    all_goals rfl
  refine ⟨fun hn => ⟨fun row hrow hid => ?_, fun hnone => exec_getParam_unlisted ha hn (paramOf_none hnone)⟩,
    fun value hn => ⟨fun hnone => exec_setParam_unlisted ha hn (paramOf_none hnone), fun row hrow hid => ?_⟩⟩
  · obtain ⟨hp, -⟩ := paramRows_sound row hrow
    rw [hid] at hp
    rw [exec_getParam ha hn hp, hheld]
    rfl
  · obtain ⟨hp, hleast, hmost⟩ := paramRows_sound row hrow
    rw [hid] at hp
    have hrange : paramInRange row.2.1 value.toNat = true ↔ row.2.2.1 ≤ value.toNat ∧ value.toNat ≤ row.2.2.2 := by
      rw [← hleast, ← hmost]
      simp [paramInRange]
    have hcode : row.2.1 = .settleCode ↔ id = 0x08 := by
      rw [← paramOf_settleCode id, hp, Option.some.injEq]
    refine ⟨fun hout => exec_setParam_outOfRange ha hn hp ?_, fun hge hle => ⟨fun hplain => ?_, fun h8 hrx hl hfull => ?_⟩⟩
    · rw [Bool.eq_false_iff, ne_eq, hrange]
      omega
    · have hin := hrange.2 ⟨hge, hle⟩
      have htake := exec_setParam_taken ha hn hp hin fun hsettle => hplain.resolve_left (not_not_intro (hcode.1 hsettle))
      rw [htake]
      by_cases hsettle : row.2.1 = .settleCode
      · rw [hsettle]
        rw [show s.handedOff.setParamValue .settleCode value.toNat = s.handedOff.setSettleCode value.toNat from rfl,
          State.setSettleCode_held (s := s.handedOff) ((hplain.resolve_left (not_not_intro (hcode.1 hsettle))))]
        rfl
      · rw [htaken _ hsettle]
    · obtain hsettle : row.2.1 = .settleCode := hcode.2 h8
      rw [hsettle] at hp
      have hin := hrange.2 ⟨hge, hle⟩
      rw [hsettle] at hin ⊢
      exact exec_setParam_settles ha hn hp hin hrx hl hfull

end Sys2Proof.Machine
end

section
/-! PROOFS. GET_STATUS: the owners' moments, the status data and the reply (sections 9.4.3, 10.5). -/

namespace Sys2Proof.Machine

/-! ### The status data (Table 6-18) -/

/-- Bit 1 of the freeze field is the level of pin freeze. -/
theorem freezeField_pin (f : FreezeUnit) : (freezeField f).getLsbD 1 = f.pinFreeze := by
  unfold freezeField FreezeUnit.effective
  cases f.commandFreeze <;> cases f.pinFreeze <;> rfl

/-- The byte of the pin levels. -/
theorem pinLevels_eq (m : MarkerUnit) (f : FreezeUnit) :
    pinLevels [markLevels m] [freezeField f] = [markLevels m ||| bitAt 4 f.pinFreeze] := by
  rw [← freezeField_pin]
  rfl

/-! ### Owners that answer -/

/-- The reading once those of these owners that had not answered have answered from this state. -/
def StatusReading.answered (of : Config.StatusOwner → Bool) (s : State) (r : StatusReading) : StatusReading :=
  let now := (statusOwners.filter fun o => of o && (r.answerOf o).isNone)
  { r with answers := r.answers ++ now.map fun o => (o, s.answer o) }

/-- An owner that had answered keeps its answer. -/
theorem StatusReading.answerOf_answered (of : Config.StatusOwner → Bool) (s : State) (r : StatusReading)
    (o : Config.StatusOwner) :
    (r.answered of s).answerOf o = if of o && (r.answerOf o).isNone then some (s.answer o) else r.answerOf o := by
  refine (StatusReading.answerOf_append r of s o).trans ?_
  cases r.answerOf o <;> cases of o <;> rfl

/-- Where no owner clears, nothing changes. -/
theorem State.clearCounters_none (s : State) : s.clearCounters (fun _ => false) = s := by
  simp only [State.clearCounters_eq, Bool.false_eq_true, if_false]

/-- An owner that answers sets its counters to 0 if the command asks for it. -/
theorem State.letAnswer_eq (of : Config.StatusOwner → Bool) (r : StatusReading) (s : State) :
    let t := s.clearCounters (fun o => r.clear && (of o && (r.answerOf o).isNone))
    s.letAnswer of r = t.withCmd { t.cmd with reading := some (r.answered of s) } := by
  unfold State.letAnswer StatusReading.answered
  cases r.clear with
  | false => simp only [Bool.false_and, State.clearCounters_none, Bool.false_eq_true, if_false]
  | true => simp only [Bool.true_and, if_true]

/-- The reply of a GET-STATUS: it is stored, and joins the queue unless the unit is off line. -/
theorem State.giveReply_queued (tag code : Byte) (result : Result) (data : List Byte) (s : State) :
    s.giveReply ⟨tag, code, result, data⟩ =
      let t := s.replied tag code result data
      if s.lctl.link = .up ∨ s.wires.falling.cmd = true then t else { t with cmd := { t.cmd with replies := s.cmd.replies } } := by
  by_cases hon : s.lctl.link = .up ∨ s.wires.falling.cmd = true
  · exact (State.giveReply_onLine _ s (State.offLine_eq_false hon)).trans (if_pos hon).symm
  · have hoff : s.offLine = true := (State.offLine_iff s).2 ⟨fun h => hon (.inl h), Bool.eq_false_iff.2 fun h => hon (.inr h)⟩
    dsimp only
    rw [if_neg hon, State.giveReply_eq, if_pos hoff]
    rfl

/-- The reply of a GET-STATUS ends its reading, whatever it is. -/
theorem State.giveReply_reading (r : Reply) (q : Option StatusReading) (s : State) :
    State.giveReply r { s with cmd := { s.cmd with reading := q } } = s.giveReply r := by
  rw [State.giveReply_eq, State.giveReply_eq]
  rfl

/-- A claim for the request in hand is answered, behind those that wait, before the path controller answers. -/
theorem State.settlePath_claiming {s : State} (h : ∃ q a body, s.path.state = .claiming q a body) :
    s.settlePath = s.takePathClaims := by
  obtain ⟨q, a, body, hstate⟩ := h
  rw [State.settlePath, hstate]

section
variable {s : State} {tag clear : Byte}

/-- GET_STATUS with a clear byte of Table 6-16 begins to be executed. -/
theorem exec_getStatus {on : Bool} (ha : s.acceptsTag tag) (hn : s.isNext (.command tag 0x06 [clear]))
    (hclear : flagOf clear = some on) :
    exec (.getStatus tag [clear]) s = nextOf (s.running.beginStatus tag on) := by
  have harg : argByte [clear] 0 = clear := rfl
  have hrun : runCode tag 0x06 [clear] s.handedOff = (s.running.beginStatus tag on, none) :=
    (withLength_right 1 [clear] (runGetStatus tag [clear]) s.handedOff rfl).trans (by rw [runGetStatus, harg, hclear]; rfl)
  rw [exec_command (i := .getStatus tag [clear]) rfl, State.takeCommand_accepted _ _ _ _ s hn ha, hrun]
  rfl

/-- GET_STATUS with another clear byte. -/
theorem exec_getStatus_badValue (ha : s.acceptsTag tag) (hn : s.isNext (.command tag 0x06 [clear]))
    (hclear : flagOf clear = none) :
    exec (.getStatus tag [clear]) s = .next (s.handedOff.replied tag 0x06 .badValue []) := by
  refine exec_command_run (t := s.running) ha rfl rfl rfl hn ?_ rfl rfl
  have harg : argByte [clear] 0 = clear := rfl
  rw [runGetStatus, harg, hclear]

end

section
variable {v : State} {r : StatusReading}

/-- A moment at which an owner still to answer does not. -/
theorem State.ownersAnswer_incomplete (h : v.cmd.reading = some r) {of : Config.StatusOwner → Bool}
    (hof : of = fun o => v.mayAnswer o && Config.answersNow v.choices o) (hopen : ∃ o, (r.answered of v).answerOf o = none) :
    v.ownersAnswer = (v.letAnswer of r).withChoices (v.choices + 1) := by
  have hreading : ((v.letAnswer of r).withChoices (v.choices + 1)).cmd.reading = some (r.answered of v) := by
    rw [State.letAnswer_eq]
    rfl
  have hstart : v.ownersAnswer = ((v.letAnswer of r).withChoices (v.choices + 1)).closeReading := by
    rw [State.ownersAnswer, h, hof]
  rw [hstart]
  obtain ⟨o, ho⟩ := hopen
  rcases State.closeReading_cases _ _ hreading with ⟨-, hc⟩ | ⟨hfull, -⟩
  · exact hc
  · exact absurd ho ((StatusReading.complete_iff _).1 hfull o)

/-- A moment at which the last owner answers: the reply is formed. -/
theorem State.ownersAnswer_complete (h : v.cmd.reading = some r) {of : Config.StatusOwner → Bool}
    (hof : of = fun o => v.mayAnswer o && Config.answersNow v.choices o) {a : Config.StatusOwner → OwnerAnswer}
    (hall : ∀ o, (r.answered of v).answerOf o = some (a o)) :
    v.ownersAnswer = ((v.letAnswer of r).withChoices (v.choices + 1)).giveReply ⟨r.tag, 0x06, .ok, statusData a⟩ := by
  have hreading : ((v.letAnswer of r).withChoices (v.choices + 1)).cmd.reading = some (r.answered of v) := by
    rw [State.letAnswer_eq]
    rfl
  have hstart : v.ownersAnswer = ((v.letAnswer of r).withChoices (v.choices + 1)).closeReading := by
    rw [State.ownersAnswer, h, hof]
  rw [hstart]
  rcases State.closeReading_cases _ _ hreading with ⟨hpart, -⟩ | ⟨-, hc⟩
  · have hfull : (r.answered of v).complete = true := (StatusReading.complete_iff _).2 fun o => by simp [hall o]
    exact absurd (hfull.symm.trans hpart) nofun
  · simp only [hc, hall, Option.getD_some]
    rfl

/-- The path controller can answer when no claim for a request in hand is unanswered. -/
theorem State.mayAnswer_iff (s : State) (o : Config.StatusOwner) :
    s.mayAnswer o = true ↔ (o = .path → ¬ ∃ q a body, s.path.state = .claiming q a body) := by
  cases o
  case path => cases h : s.path.state <;> simp [State.mayAnswer, h]
  all_goals simp [State.mayAnswer]

end

/-- Settles O55: which owners answer is decided at each moment, and the reply is made of their answers. -/
theorem statusIsReadThenCleared : Obligations.StatusIsReadThenCleared := by
  unfold Obligations.StatusIsReadThenCleared
  intro cleared bit data formed
  have hdata (by' : Config.StatusOwner → State) : data by' = statusData fun o => (by' o).answer o := by
    have hpins : pinLevels ((by' .mrk).answer .mrk).fields ((by' .frzu).answer .frzu).fields =
        [markLevels (by' .mrk).mrk ||| bitAt 4 (by' .frzu).frzu.pinFreeze] := pinLevels_eq ..
    unfold statusData
    rw [hpins]
    simp only [data, State.answer, List.append_assoc, List.cons_append, List.nil_append]
    rfl
  have hcleared (of : Config.StatusOwner → Prop) [DecidablePred of] (v : State) :
      cleared of v = v.clearCounters fun o => decide (of o) := by
    rw [State.clearCounters_eq]
    simp only [decide_eq_true_eq, cleared]
  have hformed (tag : Byte) (by' : Config.StatusOwner → State) (v : State) :
      formed tag by' v = v.giveReply ⟨tag, 0x06, .ok, statusData fun o => (by' o).answer o⟩ := by
    rw [State.giveReply_queued, ← hdata]
  clear_value formed data bit cleared
  refine ⟨fun tag clear s ha hn => ⟨fun h => ?_, fun h0 h1 => ?_⟩, fun by' => ?_, ?_⟩
  · rcases h with rfl | rfl
    · exact exec_getStatus ha hn rfl
    · exact exec_getStatus ha hn rfl
  · exact exec_getStatus_badValue ha hn (by rw [flagOf, if_neg h0, if_neg h1])
  · rw [hdata]
    rfl
  · intro v r hr claiming
    refine ⟨fun now hnow => ?_, ?_⟩
    · let of := fun o => v.mayAnswer o && Config.answersNow v.choices o
      have hof : now = fun o => of o && (r.answerOf o).isNone := by
        funext o
        rw [Bool.eq_iff_iff, hnow o, Bool.and_eq_true, Bool.and_eq_true, State.mayAnswer_iff, Option.isNone_iff_eq_none]
        exact ⟨fun ⟨hdraw, hopen, hpath⟩ => ⟨⟨hpath, hdraw⟩, hopen⟩, fun ⟨⟨hpath, hdraw⟩, hopen⟩ => ⟨hdraw, hopen, hpath⟩⟩
      have hafter : (v.letAnswer of r).withChoices (v.choices + 1) =
          let after := { cleared (fun o => r.clear = true ∧ now o = true) v with choices := v.choices + 1 }
          { after with cmd := { after.cmd with reading := some (r.answered of v) } } := by
        rw [State.letAnswer_eq, hcleared, hof]
        simp only [Bool.decide_and, Bool.decide_eq_true]
        rfl
      refine ⟨r.answered of v, rfl, rfl, rfl, fun o => ?_, fun hopen => ?_, fun by' hall => ?_⟩
      · rw [StatusReading.answerOf_answered, hof]
      · rw [State.ownersAnswer_incomplete hr rfl hopen]
        exact hafter
      · rw [State.ownersAnswer_complete hr rfl hall, hformed]
        exact (congrArg (State.giveReply _) hafter).trans (State.giveReply_reading _ _ _)
    · intro w
      have hw : (if (r.answerOf .path).isNone then v.settlePath else v) = w := by
        simp only [Option.isNone_iff_eq_none, w]
      refine ⟨fun hidle => ?_, fun hclaim hopen => ?_, fun by' hall => ?_⟩
      · have hsettled : v.settlePath = v := State.settlePath_none v fun q a body h => hidle ⟨q, a, body, h⟩
        simp only [w, hsettled, ite_self]
      · have hopened : w = v.settlePath := if_pos hopen
        refine ⟨hopened.trans (State.settlePath_claiming hclaim), fun ⟨q, a, body, h⟩ => ?_⟩
        exact State.settlePath_settled v q a body (hopened ▸ h)
      · have hanswers : (fun o => (r.answerOf o).getD (w.answer o)) = fun o => (by' o).answer o := by
          funext o
          rcases hall o with h | ⟨h, hby⟩
          · rw [h]
            rfl
          · rw [h, hby]
            rfl
        have hafter : w.letAnswer (fun _ => true) r =
            let after := cleared (fun o => r.clear = true ∧ r.answerOf o = none) w
            { after with cmd := { after.cmd with reading := some (r.answered (fun _ => true) w) } } := by
          rw [State.letAnswer_eq, hcleared]
          simp only [Bool.true_and, Bool.decide_and, Bool.decide_eq_true, ← Option.isNone_iff_eq_none]
          rfl
        have hend := State.finishStatus_some v r hr
        rw [hw] at hend
        rw [hend, hanswers, hformed]
        exact (congrArg (State.giveReply _) hafter).trans (State.giveReply_reading _ _ _)

end Sys2Proof.Machine
end

section
/-! PROOFS. The tick at the inputs (chapter 5). -/

namespace Sys2Proof.Machine

/-! ### Samples (R89 to R97) -/

/-- The claim that the marker unit posts for what its filter hands on (R94): none for an edge that the mode does not select. -/
def edgeClaims (pin : MarkPin) (v : BitVec 3) (edge : Option Bool) : List WaitingClaim :=
  edge.toList.flatMap fun rising => if markerSelects v rising then [⟨.marker pin, edgeClaim pin rising v⟩] else []

/-- The claim for an edge. -/
theorem edgeClaims_some (pin : MarkPin) (v : BitVec 3) (rising : Bool) :
    edgeClaims pin v (some rising) = if markerSelects v rising then [⟨.marker pin, edgeClaim pin rising v⟩] else [] := by
  simp [edgeClaims]

/-- The claim that the freeze unit posts for its effective state before and after (R97). -/
def freezeClaims (before after : Bool) : List WaitingClaim :=
  if after = before then []
  else [⟨.freezeUnit, { body := .freeze after .pin, policy := .drop, close := .none }⟩]

/-- The sample of a marker filter, with the edge it hands on. -/
def State.markSample (pin : MarkPin) (s : State) : Filter × Option Bool :=
  filterSample (filterTime s.markerCode) (markLevel s.pins pin) (s.mrk.filters.get pin)

/-- The sample of the FRZ filter. -/
def State.frzSample (s : State) : Filter × Option Bool :=
  filterSample (filterTime s.freezeCode) s.pins.frz s.frzu.filter

section
variable (s : State)

/-- A sample at a marker input touches the filter and the claims that wait. -/
theorem State.sampleMarker_eq (pin : MarkPin) :
    s.sampleMarker pin = { s with
      mrk := { s.mrk with filters := s.mrk.filters.set pin (s.markSample pin).1 }
      wires := { s.wires with
        claims := s.wires.claims ++ edgeClaims pin (s.mrk.markers.get pin) (s.markSample pin).2 } } := by
  have hsample : filterSample (filterTime s.markerCode) (markLevel s.pins pin) (s.mrk.filters.get pin) = s.markSample pin := rfl
  unfold State.sampleMarker
  rw [hsample]
  cases hedge : (s.markSample pin).2 with
  | none => simp [hedge, edgeClaims, State.withMrk]
  | some rising =>
    by_cases hselects : markerSelects (s.mrk.markers.get pin) rising = true
    · simp [hedge, edgeClaims, State.takeEdge, State.withMrk, State.postClaim, State.withWires, hselects]
    · simp [hedge, edgeClaims, State.takeEdge, State.withMrk, hselects]

/-- A sample at the FRZ input touches the filter, the claims that wait and FREEZE. -/
theorem State.sampleFreeze_eq :
    let after := s.frzu.commandFreeze || s.frzSample.1.level
    s.sampleFreeze = { s with
      frzu := { s.frzu with filter := s.frzSample.1 }
      wires := { s.wires with claims := s.wires.claims ++ freezeClaims s.frzu.effective after }
      alr := { s.alr with
        flags := if after = true ∧ s.frzu.effective = false then s.alr.flags ||| 0b100000 else s.alr.flags } } := by
  intro after
  have hsample : s.sampleFreeze =
      (s.withFrzu { s.frzu with filter := s.frzSample.1 }).freezeChanged s.frzu.effective .pin := rfl
  have hon : (s.withFrzu { s.frzu with filter := s.frzSample.1 }).frzu.effective = after := rfl
  rw [hsample]
  cases hb : s.frzu.effective <;> cases ha : after
  · rw [State.freezeChanged_same (hon.trans ha)]
    simp [freezeClaims, State.withFrzu]
  · rw [State.freezeChanged_on (hon.trans ha)]
    rfl
  · rw [State.freezeChanged_off (hon.trans ha)]
    rfl
  · rw [State.freezeChanged_same (hon.trans ha)]
    simp [freezeClaims, State.withFrzu]

/-- One sample at each of the five inputs. -/
theorem State.sampleInputs_eq :
    let after := s.frzu.commandFreeze || s.frzSample.1.level
    let claims (pin : MarkPin) := edgeClaims pin (s.mrk.markers.get pin) (s.markSample pin).2
    s.sampleInputs = { s with
      mrk := { s.mrk with
        filters := ⟨(s.markSample .m0).1, (s.markSample .m1).1, (s.markSample .m2).1, (s.markSample .m3).1⟩ }
      frzu := { s.frzu with filter := s.frzSample.1 }
      wires := { s.wires with
        claims := s.wires.claims ++ claims .m0 ++ claims .m1 ++ claims .m2 ++ claims .m3 ++
          freezeClaims s.frzu.effective after }
      alr := { s.alr with
        flags := if after = true ∧ s.frzu.effective = false then s.alr.flags ||| 0b100000 else s.alr.flags } } := by
  rw [State.sampleInputs, State.sampleFreeze_eq]
  simp only [State.sampleMarker_eq]
  rfl

/-- A choice more is drawn, and both units hold the FILTER-CODE. -/
theorem State.countChoice_settleCodes :
    s.countChoice.settleCodes = { s with
      mrk := { s.mrk with codeInUse := s.mrk.filterCode }
      frzu := { s.frzu with codeInUse := s.frzu.filterCode }
      choices := if s.mrk.codeInUse = s.mrk.filterCode ∧ s.frzu.codeInUse = s.frzu.filterCode then s.choices
        else s.choices + 1 } := by
  unfold State.countChoice State.codeChanging
  by_cases hm : s.mrk.codeInUse = s.mrk.filterCode
  · by_cases hf : s.frzu.codeInUse = s.frzu.filterCode
    · simp [hm, hf, State.settleCodes, State.withMrk, State.withFrzu]
    · simp [hm, hf, State.settleCodes, State.withMrk, State.withFrzu, State.withChoices]
  · simp [hm, State.settleCodes, State.withMrk, State.withFrzu, State.withChoices]

end

/-- The FILTER-CODE of a sample in words of the two it may be. -/
theorem codeAtTick_eq (tickFirst : Bool) (inUse held : Nat) :
    codeAtTick tickFirst inUse held = if inUse ≠ held ∧ tickFirst = true then inUse else held := by
  unfold codeAtTick
  by_cases h : inUse = held
  · simp [h]
  · simp [h]

/-! ### A tick that is due (R84 to R87) -/

section
variable {p : Pins} {s : State}

/-- The claimants whose claims are taken before a tick (R95, log 5). -/
def ofMarker : Claimant → Bool
  | .marker _                     => true
  | .path | .failed | .freezeUnit => false

/-- They are the markers. -/
theorem ofMarker_eq_false {c : Claimant} (h : ∀ q, c ≠ .marker q) : ofMarker c = false := by
  cases c
  case marker q => exact absurd rfl (h q)
  all_goals rfl

/-- The marker claims that wait are those of the marker claimants. -/
theorem State.takeMarkerClaims_eq (s : State) : s.takeMarkerClaims = s.takeClaimsOf ofMarker :=
  congrArg (fun p => s.takeClaimsOf p) (funext fun c => by cases c <;> rfl)

/-- TICK when the tick is due. -/
theorem exec_tick_due (hdue : s.tbs.tickDue = true) : exec (.tick p) s = nextOf (s.withPins p).takeTick := by
  have hleft : s.tbs.periodsLeft = 0 := by rw [Timebase.periodsLeft, hdue, if_pos rfl]
  change execTick p s = _
  rw [execTick, hleft, State.clkPeriods_zero]

/-- A claim has nothing to do with the levels of the pins. -/
theorem State.claim_withPins (c : Claim) : ((s.withPins p).claim c).1 = ((s.claim c).1).withPins p := by
  rw [State.claim_literal, State.claim_literal]
  rfl

/-- A marker claim that waits is taken before the tick. -/
theorem State.takeTick_claim {before after : List WaitingClaim} {pin : MarkPin} {c : Claim}
    (hs : s.wires.claims = before ++ ⟨.marker pin, c⟩ :: after) (h : ∀ w ∈ before, ∀ q, w.claimant ≠ .marker q) :
    s.takeTick = (((s.withWires { s.wires with claims := before ++ after }).claim c).1).takeTick := by
  rw [State.takeTick, State.takeTick, State.takeMarkerClaims_eq, State.takeMarkerClaims_eq,
    State.takeClaimsOf_step _ s before after ⟨.marker pin, c⟩ hs (fun w hw => ofMarker_eq_false (h w hw)) rfl]

/-- The report and the claims wait independently. -/
theorem State.takeClaimsOf_takeFrameReport (of : Claimant → Bool) (s : State) :
    s.takeFrameReport.takeClaimsOf of = (s.takeClaimsOf of).takeFrameReport := by
  obtain ⟨-, -, -, -, -, -, hlctl, -, -, -, -, -, -, -, hwires⟩ := s.takeClaimsOf_fields of
  have hframe : (s.takeClaimsOf of).wires.frameReport = s.wires.frameReport := (congrArg Wires.frameReport hwires :)
  rw [State.takeFrameReport_literal s, State.takeFrameReport_literal (s.takeClaimsOf of), State.takeClaimsOf_beside,
    State.ownBeside_comm fun x s => State.takeClaimsOf_beside x of s, hlctl, hframe]

/-- A frame-received report that waits is taken before the tick. -/
theorem State.takeTick_takeFrameReport (s : State) : s.takeFrameReport.takeTick = s.takeTick := by
  rw [State.takeTick, State.takeTick, State.takeMarkerClaims_eq, State.takeMarkerClaims_eq,
    State.takeClaimsOf_takeFrameReport, State.takeFrameReport_twice]

/-- The levels of the pins have nothing to do with the report. -/
theorem State.takeFrameReport_withPins (s : State) : s.takeFrameReport.withPins p = (s.withPins p).takeFrameReport := by
  rw [State.takeFrameReport_eq, State.takeFrameReport_eq]
  rfl

/-- The report and the counters leave the inputs, freeze, the alerts and the choices drawn alone. -/
theorem State.takeFrameReport_counted (s : State) :
    let t := s.takeFrameReport.tickCounters
    t.mrk = s.mrk ∧ t.frzu = s.frzu ∧ t.alr = s.alr ∧ t.choices = s.choices ∧ t.pins = s.pins ∧
    t.wires = { s.wires with frameReport := false } := by
  rw [State.takeFrameReport_eq]
  exact ⟨rfl, rfl, rfl, rfl, rfl, rfl⟩

/-- With no marker claim waiting the tick is taken at once. -/
theorem State.takeTick_eq (h : ∀ w ∈ s.wires.claims, ∀ q, w.claimant ≠ .marker q) :
    s.takeTick = s.takeFrameReport.tickCounters.sampleInputs.countChoice.settleCodes := by
  rw [State.takeTick, State.takeMarkerClaims_eq,
    State.takeClaimsOf_none _ s fun w hw => ofMarker_eq_false (h w hw)]

end

/-- Settles O36. -/
theorem tickSamplesTheInputs : Obligations.TickSamplesTheInputs := by
  intro p s hdue hclaims
  refine ⟨(s.withPins p).takeTick, exec_tick_due hdue, ?_⟩
  intro code markerTime freezeTime sampled frz before after markClaim claimsOf
  rw [State.takeTick_eq (s := s.withPins p) hclaims, State.countChoice_settleCodes, State.sampleInputs_eq]
  obtain ⟨hmrk, hfrzu, halr, hchoices, hpins, hwires⟩ := (s.withPins p).takeFrameReport_counted
  generalize (s.withPins p).takeFrameReport.tickCounters = v at *
  have hmarker (pin : MarkPin) : v.markSample pin = sampled pin := by
    rw [State.markSample, State.markerCode, hmrk, hchoices, hpins, codeAtTick_eq]
    rfl
  have hfrz : v.frzSample = frz := by
    rw [State.frzSample, State.freezeCode, hfrzu, hchoices, hpins, codeAtTick_eq]
    rfl
  have hedges (pin : MarkPin) : edgeClaims pin (v.mrk.markers.get pin) (v.markSample pin).2 = claimsOf pin := by
    rw [hmrk, hmarker]
    simp only [claimsOf]
    rcases (sampled pin).2 with _ | rising
    · rfl
    · rw [edgeClaims_some]
      cases rising <;> rfl
  simp only [hmarker, hfrz, hwires, halr, hchoices, hmrk, hfrzu] at hedges ⊢
  simp only [hedges]
  exact ⟨rfl, rfl, rfl, rfl, rfl⟩

end Sys2Proof.Machine
end

section
/-! PROOFS. A CLK period does not look at the queue of commands (log 1, log 2), and the tick at the counters (R84 to R87). -/

namespace Sys2Proof.Machine

/-! ### The queue of commands in a CLK period -/

section
variable (q : List Instr) (s : State)

/-- A claim has nothing to do with the queue of commands. -/
theorem State.claim_withPending (c : Claim) : (s.withPending q).claim c = (((s.claim c).1).withPending q, (s.claim c).2) := by
  rw [State.claim_literal, State.claim_literal]
  rfl

/-- Nor have the claims of some claimants. -/
theorem State.takeClaimsOf_withPending (of : Claimant → Bool) :
    (s.withPending q).takeClaimsOf of = (s.takeClaimsOf of).withPending q := by
  have hfold (l : List WaitingClaim) (t : State) :
      l.foldl (fun t w => (t.claim w.claim).1) (t.withPending q) =
        (l.foldl (fun t w => (t.claim w.claim).1) t).withPending q := by
    induction l generalizing t with
    | nil => rfl
    | cons w l ih => rw [List.foldl_cons, List.foldl_cons, State.claim_withPending, ih]
  exact hfold (s.wires.claims.filter fun w => of w.claimant)
    (s.withWires { s.wires with claims := s.wires.claims.filter fun w => !of w.claimant })

/-- Nor have those of the path controller for its requests. -/
theorem State.takePathClaims_withPending : (s.withPending q).takePathClaims = s.takePathClaims.withPending q := by
  rw [State.takePathClaims, State.takePathClaims, State.takeClaimsOf_withPending]
  generalize (s.takeClaimsOf fun w => decide (w = .path)) = t
  have hpath : (t.withPending q).path = t.path := rfl
  unfold State.answerClaim
  rw [hpath]
  cases t.path.state with
  | claiming r a body =>
    simp only [State.claimThenForward, State.claim_withPending]
    cases (t.claim (claimOf a body)).2 <;> cases a.lossPolicy <;> rfl
  | idle | waitSlot _ | preRead _ _ | hold _ _ _ => rfl

/-- Nor has the path controller when it makes ready to answer. -/
theorem State.settlePath_withPending : (s.withPending q).settlePath = s.settlePath.withPending q := by
  have hpath : (s.withPending q).path = s.path := rfl
  unfold State.settlePath
  rw [hpath, State.takePathClaims_withPending]
  cases s.path.state <;> rfl

/-- Nor has a reply. -/
theorem State.giveReply_withPending (r : Reply) : (s.withPending q).giveReply r = (s.giveReply r).withPending q := by
  rw [State.giveReply_eq, State.giveReply_eq]
  rfl

/-- Nor have the owners that answer. -/
theorem State.letAnswer_withPending (of : Config.StatusOwner → Bool) (r : StatusReading) :
    (s.withPending q).letAnswer of r = (s.letAnswer of r).withPending q := by
  rw [State.letAnswer_eq, State.letAnswer_eq, State.clearCounters_eq, State.clearCounters_eq]
  have hanswered : r.answered of (s.withPending q) = r.answered of s := by
    have hanswer : (s.withPending q).answer = s.answer := funext fun o => by cases o <;> rfl
    simp only [StatusReading.answered, hanswer]
  rw [hanswered]
  rfl

/-- Nor has the end of its reading. -/
theorem State.closeReading_withPending : (s.withPending q).closeReading = s.closeReading.withPending q := by
  have hcmd : (s.withPending q).cmd = s.cmd := rfl
  have hanswer : (s.withPending q).answer = s.answer := funext fun o => by cases o <;> rfl
  unfold State.closeReading
  rw [hcmd, hanswer]
  cases s.cmd.reading with
  | none => rfl
  | some r =>
    dsimp only
    split
    · exact State.giveReply_withPending q s _
    · rfl

/-- Nor has a moment at which owners may answer. -/
theorem State.ownersAnswer_withPending : (s.withPending q).ownersAnswer = s.ownersAnswer.withPending q := by
  have hcmd : (s.withPending q).cmd = s.cmd := rfl
  unfold State.ownersAnswer
  rw [hcmd]
  cases hr : s.cmd.reading with
  | none => rfl
  | some r =>
    dsimp only
    rw [State.letAnswer_withPending]
    exact State.closeReading_withPending q ((s.letAnswer _ r).withChoices (s.choices + 1))

/-- Nor has the completion of a GET-STATUS. -/
theorem State.finishStatus_withPending : (s.withPending q).finishStatus = s.finishStatus.withPending q := by
  cases hr : s.cmd.reading with
  | none => rw [State.finishStatus_none s hr, State.finishStatus_none (s.withPending q) hr]
  | some r =>
    have hanswer (u : State) : (u.withPending q).answer = u.answer := funext fun o => by cases o <;> rfl
    rw [State.finishStatus_some s r hr, State.finishStatus_some (s.withPending q) r hr]
    cases (r.answerOf .path).isNone <;>
      simp only [State.settlePath_withPending, State.letAnswer_withPending, hanswer, State.giveReply_withPending, if_true,
        Bool.false_eq_true, if_false]

/-- Nor has a CLK period of its execution. -/
theorem State.statusPeriod_withPending : (s.withPending q).statusPeriod = s.statusPeriod.withPending q := by
  have hcmd : (s.withPending q).cmd = s.cmd := rfl
  unfold State.statusPeriod
  rw [hcmd, State.finishStatus_withPending]
  cases s.cmd.reading with
  | none => rfl
  | some r =>
    dsimp only
    split
    · exact State.ownersAnswer_withPending q (s.withCmd { s.cmd with reading := some { r with periods := r.periods + 1 } })
    · rfl

/-- Nor has the frame-received report. -/
theorem State.takeFrameReport_withPending : (s.withPending q).takeFrameReport = s.takeFrameReport.withPending q := by
  rw [State.takeFrameReport_eq, State.takeFrameReport_eq]
  rfl

/-- Nor has a send end. -/
theorem State.finishSendEnd_withPending : (s.withPending q).finishSendEnd = s.finishSendEnd.withPending q := by
  unfold State.finishSendEnd
  rw [State.takeSendReport_eq, State.takeSendReport_eq, State.takeSendEnd_eq, State.takeSendEnd_eq]
  rfl

/-- Nor has the choice at a frame boundary. -/
theorem State.chooseBody_withPending : (s.withPending q).chooseBody = s.chooseBody.withPending q := by
  have hend : (s.withPending q).takeSendEnd = s.takeSendEnd.withPending q := by
    rw [State.takeSendEnd_eq, State.takeSendEnd_eq]
    rfl
  unfold State.chooseBody
  rw [hend]
  generalize s.takeSendEnd = t
  have harbitrate : (t.withPending q).arbitrate = t.arbitrate.withPending q := by
    have hfields : (t.withPending q).cmd = t.cmd ∧ (t.withPending q).windowOpen = t.windowOpen ∧
        (t.withPending q).jctl = t.jctl := ⟨rfl, rfl, rfl⟩
    obtain ⟨hcmd, hwindow, hjctl⟩ := hfields
    unfold State.arbitrate
    rw [hcmd, hwindow, hjctl]
    cases t.cmd.replies with
    | cons r rest => rfl
    | nil => cases t.windowOpen <;> cases takeOldestClosed t.jctl.frames <;> rfl
  have hfields : (t.withPending q).lctl = t.lctl ∧ (t.withPending q).ltx = t.ltx := ⟨rfl, rfl⟩
  obtain ⟨hlctl, hltx⟩ := hfields
  dsimp only
  rw [hlctl, hltx, harbitrate]
  cases t.lctl.link with
  | down | up => rfl
  | training => dsimp only; split <;> rfl

/-- Nor has a byte time. -/
theorem State.byteTime_withPending : (s.withPending q).byteTime = s.byteTime.withPending q := by
  have hsend (u : State) : (u.withPending q).sendByte = u.sendByte.withPending q := by
    have hltx : (u.withPending q).ltx = u.ltx := rfl
    unfold State.sendByte
    rw [hltx, State.endBody_eq, State.endBody_eq]
    split <;> rfl
  have hltx : (s.withPending q).ltx = s.ltx := rfl
  unfold State.byteTime
  rw [hltx, State.chooseBody_withPending, hsend, hsend]
  cases s.ltx.abortBytes with
  | nil => dsimp only; split <;> rfl
  | cons b rest => rfl

/-- Nor has the entry to UP. -/
theorem State.takeUp_withPending : (s.withPending q).takeUp = s.takeUp.withPending q := by
  have hback (u : State) : (u.withPending q).takeBack = u.takeBack.withPending q := by
    rw [State.takeBack_eq, State.takeBack_eq]
    rfl
  have hremove (n : Seq) (u : State) : (u.withPending q).removeBefore n = (u.removeBefore n).withPending q := by
    have hjctl : (u.withPending q).jctl = u.jctl := rfl
    unfold State.removeBefore
    rw [hjctl, State.sendSpaceFreed_eq, State.sendSpaceFreed_eq]
    split <;> rfl
  have hnumber (e : Seq) (u : State) : (u.withPending q).takeHelloNumber e = (u.takeHelloNumber e).withPending q := by
    have hjctl : (u.withPending q).jctl = u.jctl := rfl
    unfold State.takeHelloNumber State.removeAndTakeBack
    rw [hjctl, hremove, hback, hback]
    split <;> rfl
  have hwires : (s.withPending q).wires = s.wires := rfl
  unfold State.takeUp
  rw [hwires]
  cases s.wires.upHello with
  | none => rfl
  | some e => exact congrArg State.openDelivery (hnumber e (s.withWires { s.wires with upHello := none }))

/-- Nor has the entry to DOWN. -/
theorem State.takeDown_withPending : (s.withPending q).takeDown = s.takeDown.withPending q := by
  have hltx (u : State) : (u.withPending q).ltxTakesDown = u.ltxTakesDown.withPending q := by
    rw [State.ltxTakesDown_eq, State.ltxTakesDown_eq]
    rfl
  have hdlv (u : State) : (u.withPending q).dlvTakesDown = u.dlvTakesDown.withPending q := by
    have hwires : (u.withPending q).wires = u.wires := rfl
    unfold State.dlvTakesDown
    rw [hwires, hltx, State.finishSendEnd_withPending]
    split <;> rfl
  have hlrx (u : State) : (u.withPending q).lrxTakesDown = u.lrxTakesDown.withPending q := by
    rw [State.lrxTakesDown_eq, State.lrxTakesDown_eq]
    rfl
  have hcmd (u : State) : (u.withPending q).cmdTakesDown = u.cmdTakesDown.withPending q := by
    rw [State.cmdTakesDown_eq, State.cmdTakesDown_eq]
    rfl
  have halr (u : State) : (u.withPending q).alrTakesDown = u.alrTakesDown.withPending q := by
    rw [State.alrTakesDown_eq, State.alrTakesDown_eq]
    rfl
  simp only [State.takeDown, State.takeDownBy, if_true, hltx, hdlv, hlrx, hcmd, halr]

/-- Nor has a tick. -/
theorem State.takeTick_withPending : (s.withPending q).takeTick = s.takeTick.withPending q := by
  rw [State.takeTick, State.takeTick, State.takeMarkerClaims_eq, State.takeMarkerClaims_eq, State.takeClaimsOf_withPending,
    State.takeFrameReport_withPending]
  generalize (s.takeClaimsOf ofMarker).takeFrameReport = t
  rw [State.countChoice_settleCodes, State.countChoice_settleCodes, State.sampleInputs_eq, State.sampleInputs_eq]
  rfl

/-- Nor has what is due or waits before a CLK period. -/
theorem State.takeDue_withPending : (s.withPending q).takeDue = s.takeDue.withPending q := by
  have htick (u : State) : (if (u.withPending q).tbs.tickDue then (u.withPending q).takeTick.ownersAnswer else u.withPending q) =
      (if u.tbs.tickDue then u.takeTick.ownersAnswer else u).withPending q := by
    rw [State.takeTick_withPending, State.ownersAnswer_withPending]
    exact (apply_ite (fun u : State => u.withPending q) _ _ _).symm
  have hbyte (u : State) : (if (u.withPending q).ltx.byteDue then (u.withPending q).byteTime.ownersAnswer else u.withPending q) =
      (if u.ltx.byteDue then u.byteTime.ownersAnswer else u).withPending q := by
    rw [State.byteTime_withPending, State.ownersAnswer_withPending]
    exact (apply_ite (fun u : State => u.withPending q) _ _ _).symm
  have hcodes (u : State) : (u.withPending q).settleCodes = u.settleCodes.withPending q := rfl
  simp only [State.takeDue, State.takePathClaims_withPending, State.ownersAnswer_withPending, State.takeFrameReport_withPending,
    htick, State.finishSendEnd_withPending, hbyte, State.takeUp_withPending, State.takeDown_withPending, hcodes]

/-- Nor has a CLK period. -/
theorem State.clkPeriod_withPending : (s.withPending q).clkPeriod = s.clkPeriod.withPending q := by
  unfold State.clkPeriod
  rw [State.takeDue_withPending]
  exact State.statusPeriod_withPending q ((s.takeDue.withTbs s.takeDue.tbs.clkPeriod).withLtx s.takeDue.ltx.clkPeriod)

end

/-! ### The timebase in a CLK period -/

/-- The timebase moves with the clock and by a new TICK-SHIFT alone. -/
theorem Event.tbs_kept {k : EventKind} {s t : State} (he : Event k s t) (hk : k = .path ∨ k = .link ∨ k = .status) :
    t.tbs = s.tbs := by
  cases he
  case tick | period | paramSet => simp at hk
  all_goals rfl

section
variable {s : State}

/-- With no tick due, the timebase stands until the period passes. -/
theorem State.takeDue_tbs (hdue : s.tbs.tickDue = false) : s.takeDue.tbs = s.tbs := by
  have hkept {u v : State} (h : Reach (fun k => k = .path ∨ k = .link ∨ k = .status) u v) : v.tbs = u.tbs :=
    h.keeps (P := fun t => t.tbs = u.tbs) (fun _ _ _ hk he ht => (he.tbs_kept hk).trans ht) rfl
  have hpath : EventKind.path = .path ∨ EventKind.path = .link ∨ EventKind.path = .status := .inl rfl
  have hlink : EventKind.link = .path ∨ EventKind.link = .link ∨ EventKind.link = .status := .inr (.inl rfl)
  have hstatus (u : State) : u.ownersAnswer.tbs = u.tbs := hkept (u.ownersAnswer_reach fun _ => .inr (.inr rfl))
  have hbefore : s.takePathClaims.ownersAnswer.takeFrameReport.tbs = s.tbs :=
    (hkept (State.takeFrameReport_reach _ hlink)).trans ((hstatus _).trans (hkept (s.takePathClaims_reach hpath)))
  have hbyte (u : State) : (if u.ltx.byteDue then u.byteTime.ownersAnswer else u).tbs = u.tbs := by
    split
    · exact (hstatus _).trans (hkept (u.byteTime_reach hlink))
    · rfl
  have hrest (u : State) : u.takeUp.ownersAnswer.takeDown.settleCodes.tbs = u.tbs :=
    (hkept (State.takeDownBy_reach _ hlink _)).trans ((hstatus _).trans (hkept (u.takeUp_reach hlink)))
  unfold State.takeDue
  dsimp only
  have hdue' : s.takePathClaims.ownersAnswer.takeFrameReport.tbs.tickDue = false := by rw [hbefore, hdue]
  rw [hrest, hbyte, hstatus, hkept (State.finishSendEnd_reach _ hlink), hdue', if_neg Bool.false_ne_true, hbefore]

/-- After a CLK period with no tick due the tick is one period nearer. -/
theorem State.clkPeriod_tbs (hdue : s.tbs.tickDue = false) : s.clkPeriod.tbs = s.tbs.clkPeriod := by
  have hstatus (u : State) : u.statusPeriod.tbs = u.tbs :=
    (u.statusPeriod_reach (allow := fun k => k = .path ∨ k = .link ∨ k = .status) (.inr (.inr rfl)) (.inl rfl)).keeps
      (P := fun t => t.tbs = u.tbs) (fun _ _ _ hk he ht => (he.tbs_kept hk).trans ht) rfl
  rw [State.clkPeriod, hstatus, ← State.takeDue_tbs hdue]
  rfl

/-- A TICK before it is due lets one CLK period pass first. -/
theorem exec_tick_notDue {p : Pins} (hdue : s.tbs.tickDue = false) : exec (.tick p) s = exec (.tick p) s.clkPeriod := by
  have hleft : s.tbs.periodsLeft = s.clkPeriod.tbs.periodsLeft + 1 := by
    rw [State.clkPeriod_tbs hdue, Timebase.periodsLeft_clkPeriod _ hdue]
  change execTick p s = execTick p s.clkPeriod
  rw [execTick, execTick, hleft, State.clkPeriods_succ]

end

/-- Settles O35. -/
theorem tickCountsEverywhere : Obligations.TickCountsEverywhere := by
  intro p s
  refine ⟨fun hdue t ht => ?_, fun hdue before after pin c hs h => ?_, fun hdue => ?_, fun hdue hreport hclaims => ?_⟩
  · have hperiod : ({ s with pending := [] } : State).clkPeriod = t := Host.Outcome.next.inj ht
    have hqueue : ({ t with pending := s.pending } : State) = s.clkPeriod := by
      rw [← hperiod]
      exact (State.clkPeriod_withPending s.pending (s.withPending [])).symm
    rw [hqueue, ← exec_tick_notDue hdue]
  · rw [exec_tick_due hdue, State.takeTick_claim (s := s.withPins p) hs h, exec_tick_due (by rw [State.claim_literal]; exact hdue),
      ← State.claim_withPins]
    rfl
  · rw [exec_tick_due hdue, exec_tick_due (by rw [State.takeFrameReport_eq]; exact hdue), State.takeFrameReport_withPins,
      State.takeTick_takeFrameReport]
  · have hnone : (s.withPins p).takeFrameReport = s.withPins p := State.takeFrameReport_none (s.withPins p) hreport
    refine ⟨(s.withPins p).takeTick, exec_tick_due hdue, ?_⟩
    rw [State.takeTick_eq (s := s.withPins p) hclaims, State.countChoice_settleCodes, State.sampleInputs_eq, hnone]
    exact ⟨rfl, rfl, rfl, rfl, rfl, rfl, rfl, rfl, rfl, rfl⟩

end Sys2Proof.Machine
end

section
/-! PROOFS. The bytes of a body on the uplink line (sections 6.1 and 6.2). -/

namespace Sys2Proof.Machine

/-! ### Bytes put on the line -/

/-- Byte times put these bytes on the line, one each, and lead from the one state to the other. -/
def State.Puts (l : List Byte) (s t : State) : Prop :=
  State.byteTime^[l.length] s = t ∧ ∀ k < l.length, (State.byteTime^[k + 1] s).ltx.lastByte = l[k]?

section
variable {l m : List Byte} {s t u : State}

/-- Bytes after bytes. -/
theorem State.Puts.append (h : State.Puts l s t) (h' : State.Puts m t u) : State.Puts (l ++ m) s u := by
  obtain ⟨hst, hl⟩ := h
  obtain ⟨htu, hm⟩ := h'
  refine ⟨?_, fun k hk => ?_⟩
  · rw [List.length_append, Nat.add_comm, Function.iterate_add_apply, hst, htu]
  · by_cases hfirst : k < l.length
    · rw [hl k hfirst, List.getElem?_append_left hfirst]
    · obtain ⟨j, rfl⟩ := Nat.exists_eq_add_of_le (Nat.not_lt.1 hfirst)
      have hj : j < m.length := by
        rw [List.length_append] at hk
        omega
      have hsplit : l.length + j + 1 = (j + 1) + l.length := by omega
      rw [hsplit, Function.iterate_add_apply, hst, hm j hj, List.getElem?_append_right (Nat.le_add_right _ _),
        Nat.add_sub_cancel_left]

/-- One byte. -/
theorem State.puts_single {v : Byte} (h : s.byteTime = t) (hv : t.ltx.lastByte = some v) : State.Puts [v] s t := by
  refine ⟨h, fun k hk => ?_⟩
  obtain rfl : k = 0 := Nat.lt_one_iff.1 hk
  rw [← h] at hv
  exact hv

end

/-! ### The bytes of a body in progress -/

/-- The transmitter when this body is in progress and so many of its bytes and of its check value's have been sent whole. -/
def LinkTransmitter.sentTo (b : TxBody) (n : Nat) (x : LinkTransmitter) : LinkTransmitter :=
  { x with body := some b, bytesSent := n, escapeSent := false, check := checkValue (b.bytes.take n) }

/-- The state with such a transmitter. -/
def State.sentTo (b : TxBody) (n : Nat) (s : State) : State := s.withLtx (s.ltx.sentTo b n)

/-- The state after a byte time in which this was the last byte put on the line. -/
def State.lastPut (last : Option Byte) (s : State) : State := s.withLtx { s.ltx with lastByte := last, byteDue := false }

/-- The byte or the two bytes on the line for a byte of a body (R102). -/
def lineBytes (v : Byte) : List Byte := if isReserved v then [Config.escape, escapedSecond v] else [v]

section
variable {b : TxBody} {n : Nat} {v : Byte}

/-- The bytes of a body, then those of its check value, are sent in turn (R106). -/
theorem LinkTransmitter.nextBodyByte_sentTo {x : LinkTransmitter} (hv : (withCheck b.bytes)[n]? = some v)
    (hx : x.bytesSent = n) (hcheck : x.check = checkValue (b.bytes.take n)) :
    x.nextBodyByte b = some (v, decide (n < b.bytes.length)) := by
  unfold LinkTransmitter.nextBodyByte
  rw [hx]
  unfold withCheck at hv
  by_cases hlt : n < b.bytes.length
  · rw [List.getElem?_append_left hlt] at hv
    rw [hv, decide_eq_true hlt]
  · obtain ⟨j, rfl⟩ := Nat.exists_eq_add_of_le (Nat.not_lt.1 hlt)
    rw [List.getElem?_append_right (Nat.le_add_right _ _), Nat.add_sub_cancel_left] at hv
    rw [List.getElem?_eq_none (Nat.le_add_right _ _), decide_eq_false hlt, hcheck,
      List.take_of_length_le (Nat.le_add_right _ _)]
    match j, hv with
    | 0, hv =>
      simp only [Nat.add_zero, if_pos]
      exact congrArg (Option.map fun v => (v, false)) hv
    | 1, hv =>
      simp only [Nat.add_eq_left, Nat.one_ne_zero, if_false, if_pos]
      exact congrArg (Option.map fun v => (v, false)) hv

/-- A byte sent whole is counted, and one of the body enters the check value. -/
theorem LinkTransmitter.countByte_sentTo {x : LinkTransmitter} (hv : (withCheck b.bytes)[n]? = some v) (esc : Bool) :
    LinkTransmitter.countByte v (decide (n < b.bytes.length)) { x.sentTo b n with escapeSent := esc } = x.sentTo b (n + 1) := by
  have hcheck : (if decide (n < b.bytes.length) then checkByte (checkValue (b.bytes.take n)) v else checkValue (b.bytes.take n)) =
      checkValue (b.bytes.take (n + 1)) := by
    by_cases hlt : n < b.bytes.length
    · unfold withCheck at hv
      rw [List.getElem?_append_left hlt] at hv
      rw [if_pos (decide_eq_true hlt), List.take_add_one, hv, checkValue, checkValue, List.foldl_append]
      rfl
    · rw [if_neg (by simpa using hlt), List.take_of_length_le (by omega), List.take_of_length_le (by omega)]
  unfold LinkTransmitter.countByte
  simp only [LinkTransmitter.sentTo, hcheck]

/-- A byte time with a byte of a body left to send. -/
theorem State.byteTime_body {u : State} {inCheck : Bool} (hb : u.ltx.body = some b) (ha : u.ltx.abortBytes = [])
    (hnext : u.ltx.nextBodyByte b = some (v, inCheck)) :
    u.byteTime = u.withLtx (if u.ltx.escapeSent then (u.ltx.countByte v inCheck).put (escapedSecond v)
      else if isReserved v then { u.ltx with escapeSent := true }.put Config.escape
      else (u.ltx.countByte v inCheck).put v) := by
  have hleft : u.ltx.allSent = false := by
    simp only [LinkTransmitter.allSent, hb, hnext, Option.isNone_some]
  have hbyte : u.byteTime = u.sendByte := by rw [State.byteTime, ha, hb]; rfl
  have hbind : u.ltx.body.bind u.ltx.nextBodyByte = some (v, inCheck) := by rw [hb, Option.bind_some, hnext]
  rw [hbyte, State.sendByte, hleft, LinkTransmitter.sendBodyByte, hbind, if_neg Bool.false_ne_true]

/-- There is a byte to send until the last of the check value. -/
theorem withCheck_getElem? (hn : n < b.bytes.length + 2) : ∃ v, (withCheck b.bytes)[n]? = some v :=
  ⟨_, List.getElem?_eq_getElem (by simpa [withCheck, be16] using hn)⟩

/-- One byte more of a body is its bytes on the line more. -/
theorem escapeBody_take {bytes : List Byte} (hv : bytes[n]? = some v) :
    escapeBody (bytes.take (n + 1)) = escapeBody (bytes.take n) ++ lineBytes v := by
  rw [List.take_add_one, hv, escapeBody, List.flatMap_append]
  exact congrArg (_ ++ ·) (List.flatMap_singleton _ _)

/-- The last byte on the line is the last of these. -/
theorem getLast?_append_lineBytes (l : List Byte) (v : Byte) : (l ++ lineBytes v).getLast? = (lineBytes v).getLast? := by
  unfold lineBytes
  split
  · exact List.getLast?_append_of_ne_nil _ nofun
  · exact List.getLast?_append_of_ne_nil _ nofun

/-- The bytes on the line in numbers (R102). -/
theorem lineBytes_eq (v : Byte) :
    (if v = 0xC3 then [0xCC, 0xD3] else if v = 0xCC then [0xCC, 0xDC] else [v]) = lineBytes v := by
  revert v
  decide

variable {s : State} (ha : s.ltx.abortBytes = [])
include ha

/-- A byte of a body goes out as its bytes on the line. -/
theorem State.puts_lineBytes (hv : (withCheck b.bytes)[n]? = some v) :
    State.Puts (lineBytes v) (s.sentTo b n) ((s.lastPut (lineBytes v).getLast?).sentTo b (n + 1)) := by
  have hnext (esc : Bool) : ({ s.ltx.sentTo b n with escapeSent := esc } : LinkTransmitter).nextBodyByte b =
      some (v, decide (n < b.bytes.length)) := LinkTransmitter.nextBodyByte_sentTo hv rfl rfl
  have hcount (esc : Bool) := LinkTransmitter.countByte_sentTo (x := s.ltx) hv esc
  have hfirst := State.byteTime_body (u := s.sentTo b n) rfl ha (hnext false)
  unfold lineBytes
  cases hreserved : isReserved v with
  | false =>
    refine State.puts_single ?_ rfl
    rw [hfirst, hreserved]
    exact congrArg (fun x => s.withLtx (LinkTransmitter.put v x)) (hcount false)
  | true =>
    have hescape : (s.sentTo b n).byteTime =
        s.withLtx ({ s.ltx.sentTo b n with escapeSent := true }.put Config.escape) := by
      rw [hfirst, hreserved]
      rfl
    let escaping := s.withLtx ({ s.ltx.sentTo b n with escapeSent := true }.put Config.escape)
    have hsecond := State.byteTime_body (u := escaping) rfl ha (hnext true)
    refine State.Puts.append (l := [Config.escape]) (m := [escapedSecond v]) (State.puts_single hescape rfl)
      (State.puts_single ?_ rfl)
    rw [hsecond]
    exact congrArg (fun x => s.withLtx (LinkTransmitter.put (escapedSecond v) (LinkTransmitter.put Config.escape x))) (hcount true)

/-- So do the first bytes of it. -/
theorem State.puts_escapeBody (hn : n < b.bytes.length + 2) :
    let l := escapeBody ((withCheck b.bytes).take (n + 1))
    State.Puts l (s.sentTo b 0) ((s.lastPut l.getLast?).sentTo b (n + 1)) := by
  induction n with
  | zero =>
    obtain ⟨v, hv⟩ := withCheck_getElem? hn
    rw [escapeBody_take hv]
    exact State.puts_lineBytes ha hv
  | succ n ih =>
    obtain ⟨v, hv⟩ := withCheck_getElem? hn
    have hbefore := ih (by omega)
    rw [escapeBody_take hv]
    have hlast := State.puts_lineBytes (s := s.lastPut (escapeBody ((withCheck b.bytes).take (n + 1))).getLast?) ha hv
    dsimp only
    rw [getLast?_append_lineBytes]
    exact hbefore.append hlast

end

section
variable {s : State}

/-- With all its bytes sent a body ends with its closing delimiter. -/
theorem State.byteTime_closing {b : TxBody} (ha : s.ltx.abortBytes = []) (hb : s.ltx.body = some b)
    (hall : b.bytes.length + 2 ≤ s.ltx.bytesSent) : s.byteTime = s.endBody := by
  have hbyte : s.byteTime = s.sendByte := by rw [State.byteTime, ha, hb]; rfl
  rw [hbyte, State.sendByte, if_pos ((LinkTransmitter.allSent_iff hb).2 hall)]

/-- SEND_END with none waiting and the closing delimiter of a JOURNAL body due. -/
theorem exec_sendEnd_due {b : TxBody} (hw : s.wires.sendEnd = false) (hr : s.wires.sendReport = false)
    (hdue : s.ltx.byteDue = true) (hj : s.ltx.inJournal = true) (hb : s.ltx.body = some b)
    (hall : b.bytes.length + 2 ≤ s.ltx.bytesSent) : exec .sendEnd s = nextOf s.endBody.finishSendEnd := by
  change execSendEnd s = _
  rw [execSendEnd, hw, hr, hdue, hj, (LinkTransmitter.allSent_iff hb).2 hall]
  rfl

/-- The choice at a frame boundary starts no abort. -/
theorem State.chooseBody_abortBytes : s.chooseBody.ltx.abortBytes = s.ltx.abortBytes := by
  have hfill (x : LinkTransmitter) : x.fill.abortBytes = x.abortBytes := by
    unfold LinkTransmitter.fill
    split <;> rfl
  have hend : s.takeSendEnd.ltx = s.ltx := by rw [State.takeSendEnd_eq]
  rw [← hend]
  unfold State.chooseBody
  generalize s.takeSendEnd = t
  dsimp only
  cases t.lctl.link with
  | down => exact hfill _
  | training =>
    dsimp only
    split
    · rfl
    · exact hfill _
  | up =>
    dsimp only
    unfold State.arbitrate
    split
    · rfl
    · split
      · rfl
      · exact hfill _

/-- At a frame boundary the choice is made, and the first byte of the body chosen goes out. -/
theorem State.byteTime_boundary (ha : s.ltx.abortBytes = []) (hb : s.ltx.body = none) :
    s.byteTime = if s.chooseBody.ltx.body = none then s.chooseBody else s.chooseBody.byteTime := by
  have hchosen : s.byteTime = s.chooseBody.sendByte := by rw [State.byteTime, ha, hb]; rfl
  have hnext : s.chooseBody.ltx.abortBytes = [] := State.chooseBody_abortBytes.trans ha
  rw [hchosen]
  generalize s.chooseBody = t at *
  cases hbody : t.ltx.body with
  | none =>
    have hunsent : t.ltx.allSent = false := by rw [LinkTransmitter.allSent, hbody]
    rw [if_pos rfl, State.sendByte, hunsent, LinkTransmitter.sendBodyByte, hbody]
    rfl
  | some b =>
    rw [if_neg nofun, State.byteTime, hnext, hbody]
    rfl

end

/-- Settles O4. -/
theorem uplinkLineCarriesBody : Obligations.UplinkLineCarriesBody := by
  intro s b y sent z ended
  have hsent : sent = escapeBody (withCheck b.bytes) := by
    refine List.flatMap_congr fun v _ => ?_
    exact lineBytes_eq v
  have hall : (withCheck b.bytes).take (b.bytes.length + 1 + 1) = withCheck b.bytes :=
    List.take_of_length_le (by simp [withCheck, be16])
  refine ⟨fun ha => ?_, fun c rest ha => ?_, fun ha hb => ⟨?_, State.byteTime_boundary ha hb⟩⟩
  · have hputs := State.puts_escapeBody (s := s) (b := b) (n := b.bytes.length + 1) ha (Nat.lt_succ_self _)
    rw [hall, ← hsent] at hputs
    obtain ⟨hend, hbytes⟩ := hputs
    have hcheck : checkValue (b.bytes.take (b.bytes.length + 1 + 1)) = checkValue b.bytes := by
      rw [List.take_of_length_le (by omega)]
    have hz : z = { y with ltx := { y.ltx with
        bytesSent := b.bytes.length + 2, check := checkValue b.bytes, byteDue := false, lastByte := sent.getLast? } } := by
      refine hend.trans ?_
      rw [← hcheck]
      rfl
    have hclosing : z.byteTime = z.endBody := by
      rw [hz]
      exact State.byteTime_closing ha rfl (Nat.le_refl _)
    have hended (journal : Bool) (hj : z.ltx.inJournal = journal) :
        z.endBody = { y with ltx := ended, wires := { y.wires with sendEnd := journal || y.wires.sendEnd } } := by
      rw [State.endBody_eq, hj, hz]
      rfl
    have hbody : z.ltx.body = some b := by rw [hz]
    refine ⟨hbytes, hz, fun hkind => ?_, fun seq hkind => ?_⟩
    · rw [hclosing, hended false]
      · rfl
      · unfold LinkTransmitter.inJournal
        split
        · next seq bytes h => exact absurd (congrArg (fun b => b.map TxBody.kind) (hbody.symm.trans h)) (by simp [hkind])
        · rfl
    · have hj : z.ltx.inJournal = true := by
        obtain ⟨kind, bytes⟩ := b
        obtain rfl : kind = .journal seq := hkind
        rw [LinkTransmitter.inJournal, hbody]
      have hwaits : z.byteTime = { y with ltx := ended, wires := { y.wires with sendEnd := true } } :=
        hclosing.trans (hended true hj)
      refine ⟨hwaits, fun hw hr => ?_⟩
      have hnone : z.wires.sendEnd = false ∧ z.wires.sendReport = false := by rw [hz]; exact ⟨hw, hr⟩
      have hbytesSent : b.bytes.length + 2 ≤ z.ltx.bytesSent := by rw [hz]
      have hdue : exec .sendEnd { z with ltx := { z.ltx with byteDue := true } } =
          nextOf ({ z with ltx := { z.ltx with byteDue := true } } : State).endBody.finishSendEnd :=
        exec_sendEnd_due hnone.1 hnone.2 rfl hj hbody hbytesSent
      have hend : exec .sendEnd z.byteTime = nextOf z.byteTime.finishSendEnd := by
        rw [hwaits]
        rfl
      rw [hdue, hend, hclosing, State.endBody_eq, State.endBody_eq]
      rfl
  · rw [State.byteTime, ha]
    rfl
  · exact exec_frameBoundary hb ha

end Sys2Proof.Machine
end

section
/-! PROOFS. One CLK period on an empty queue (log 2). -/

namespace Sys2Proof.Machine

/-! ### A GET-STATUS in a CLK period -/

section
variable {k : EventKind} {s t : State}

/-- What happens of the paths, the link and the clock leaves a GET-STATUS that is executed as it is. -/
theorem Event.reading_kept (he : Event k s t) (hk : k = .path ∨ k = .link ∨ k = .clock) : t.cmd.reading = s.cmd.reading := by
  cases he
  case cleared | readOn | statusReplied | begun | replied | paramSet => simp at hk
  all_goals rfl

/-- So does what is made of such events. -/
theorem Reach.reading_kept (h : Reach (fun k => k = .path ∨ k = .link ∨ k = .clock) s t) : t.cmd.reading = s.cmd.reading :=
  h.keeps (P := fun u => u.cmd.reading = s.cmd.reading) (fun _ _ _ hk he hu => (he.reading_kept hk).trans hu) rfl

end

/-! ### With no GET-STATUS being executed -/

/-- What is due or waits before a CLK period, with no owner to answer. -/
def State.takeDueReady (s : State) : State :=
  let s1 := s.takePathClaims.takeFrameReport
  let s2 := if s1.tbs.tickDue then s1.takeTick else s1
  let s3 := s2.finishSendEnd
  let s4 := if s3.ltx.byteDue then s3.byteTime else s3
  s4.takeUp.takeDown.settleCodes

/-- The CLK period at the timebase and at the transmitter. -/
def State.passed (s : State) : State := (s.withTbs s.tbs.clkPeriod).withLtx s.ltx.clkPeriod

section
variable {s t : State}

/-- With no GET-STATUS being executed no owner answers. -/
theorem State.takeDue_ready (h : s.cmd.reading = none) : s.takeDue = s.takeDueReady ∧ s.takeDueReady.cmd.reading = none := by
  have hp : EventKind.path = .path ∨ EventKind.path = .link ∨ EventKind.path = .clock := .inl rfl
  have hl : EventKind.link = .path ∨ EventKind.link = .link ∨ EventKind.link = .clock := .inr (.inl rfl)
  have hc : EventKind.clock = .path ∨ EventKind.clock = .link ∨ EventKind.clock = .clock := .inr (.inr rfl)
  have hclaims : s.takePathClaims.cmd.reading = none := (s.takePathClaims_reach hp).reading_kept.trans h
  unfold State.takeDue State.takeDueReady
  rw [State.ownersAnswer_none _ hclaims]
  have hreport : s.takePathClaims.takeFrameReport.cmd.reading = none :=
    (State.takeFrameReport_reach _ hl).reading_kept.trans hclaims
  generalize s.takePathClaims.takeFrameReport = u at hreport
  have hticked : u.takeTick.cmd.reading = none := (u.takeTick_reach hp hl hc).reading_kept.trans hreport
  dsimp only
  rw [State.ownersAnswer_none _ hticked]
  have htick : (if u.tbs.tickDue then u.takeTick else u).cmd.reading = none := by
    split
    · exact hticked
    · exact hreport
  generalize (if u.tbs.tickDue then u.takeTick else u) = v at htick
  have hend : v.finishSendEnd.cmd.reading = none := (v.finishSendEnd_reach hl).reading_kept.trans htick
  rw [State.ownersAnswer_none _ hend]
  generalize v.finishSendEnd = w at hend
  have hsent : w.byteTime.cmd.reading = none := (w.byteTime_reach hl).reading_kept.trans hend
  rw [State.ownersAnswer_none _ hsent]
  have hbyte : (if w.ltx.byteDue then w.byteTime else w).cmd.reading = none := by
    split
    · exact hsent
    · exact hend
  generalize (if w.ltx.byteDue then w.byteTime else w) = x at hbyte
  have hup : x.takeUp.cmd.reading = none := (x.takeUp_reach hl).reading_kept.trans hbyte
  rw [State.ownersAnswer_none _ hup]
  exact ⟨rfl, ((State.takeDownBy_reach _ hl _).trans (State.settleCodes_reach _ hc)).reading_kept.trans hup⟩

/-- A step on an empty queue, with no GET-STATUS being executed. -/
theorem step_idle (hq : s.pending = []) (h : s.cmd.reading = none) : step s = .next s.takeDueReady.passed := by
  obtain ⟨hdue, hreading⟩ := State.takeDue_ready h
  have hperiod : s.clkPeriod = s.takeDueReady.passed := by
    rw [State.clkPeriod, hdue]
    exact State.statusPeriod_none _ hreading
  simp only [step, hq, hperiod]

/-- A command of which nothing is left to do in a CLK period but what was left before it makes no difference to the next. -/
theorem step_congr (hs : s.pending = []) (hr : s.cmd.reading = none) (ht : t.pending = []) (hrt : t.cmd.reading = none)
    (h : s.takeDueReady = t.takeDueReady) : step s = step t := by
  rw [step_idle hs hr, step_idle ht hrt, h]

/-! ### What waits, taken by its own command first -/

/-- The path controller has no claim for its requests left. -/
def State.pathSettled (s : State) : Prop :=
  (∀ r a body, s.path.state ≠ .claiming r a body) ∧ ∀ w ∈ s.wires.claims, w.claimant ≠ .path

/-- Then none is taken. -/
theorem State.pathSettled.takePathClaims (h : s.pathSettled) : s.takePathClaims = s := State.takePathClaims_none s h.1 h.2

/-- The oldest waiting claim of a claimant, with what stands before and behind it. -/
theorem exists_oldest_claim {who : Claimant} {l : List WaitingClaim} (h : ∃ w ∈ l, w.claimant = who) :
    ∃ before c after, l = before ++ ⟨who, c⟩ :: after ∧ ∀ w ∈ before, w.claimant ≠ who := by
  obtain ⟨w, hw, hc⟩ := h
  obtain ⟨x, hx⟩ := Option.isSome_iff_exists.1
    (List.find?_isSome (p := fun w : WaitingClaim => decide (w.claimant = who)).2 ⟨w, hw, decide_eq_true hc⟩)
  obtain ⟨hwho, before, after, hl, hb⟩ := List.find?_eq_some_iff_append.1 hx
  obtain ⟨claimant, c⟩ := x
  obtain rfl : claimant = who := of_decide_eq_true hwho
  exact ⟨before, c, after, hl, fun w hw => by simpa using hb w hw⟩

/-- APPEND_CLAIM takes first what of the path controller's claims would be taken first. -/
theorem exec_appendClaim_takePathClaims (hr : s.cmd.reading = none) (h : exec (.appendClaim .path) s = .next t) :
    t.takePathClaims = s.takePathClaims ∧ t.pending = s.pending ∧ t.cmd.reading = none := by
  have hqueue : t.pending = s.pending := by
    obtain ⟨u, hu, hpending⟩ := everyCommandCompletes (.appendClaim .path) s
    obtain rfl : u = t := Host.Outcome.next.inj (hu.symm.trans h)
    exact hpending
  change execAppendClaim .path s = .next t at h
  by_cases hw : ∃ w ∈ s.wires.claims, w.claimant = .path
  · obtain ⟨before, c, after, hs, hb⟩ := exists_oldest_claim hw
    have hreading : ((s.withWires { s.wires with claims := before ++ after }).claim c).1.cmd.reading = none := by
      rw [State.claim_literal]
      exact hr
    rw [execAppendClaim_waiting .path s before after c hs hb, nextOf_none _ hreading] at h
    obtain rfl := Host.Outcome.next.inj h
    refine ⟨?_, hqueue, hreading⟩
    rw [State.takePathClaims, State.takePathClaims, State.takeClaimsOf_step _ s before after ⟨.path, c⟩ hs
      (fun w hw => decide_eq_false (hb w hw)) (decide_eq_true rfl)]
  · have hnone : ∀ w ∈ s.wires.claims, w.claimant ≠ .path := fun w hm hc => hw ⟨w, hm, hc⟩
    have hreading : s.answerClaim.cmd.reading = none := (s.answerClaim_reach (.inl rfl)).reading_kept.trans hr
    rw [execAppendClaim_none .path s hnone, if_pos rfl, nextOf_none _ hreading] at h
    obtain rfl := Host.Outcome.next.inj h
    have hwires : s.answerClaim.wires = s.wires := by
      unfold State.answerClaim
      split
      · next r a body _ =>
        obtain ⟨-, -, -, -, -, -, -, -, -, -, -, hwires, -⟩ := State.claimThenForward_fields r a body s
        exact hwires
      all_goals rfl
    have hsettled : s.answerClaim.pathSettled := ⟨fun r a body => State.answerClaim_settled s r a body, by rw [hwires]; exact hnone⟩
    have hwaiting : s.takeClaimsOf (fun w => decide (w = .path)) = s :=
      State.takeClaimsOf_none _ s fun w hm => decide_eq_false (hnone w hm)
    exact ⟨hsettled.takePathClaims.trans (congrArg State.answerClaim hwaiting.symm), hqueue, hreading⟩

/-- A tick leaves the queue of commands as it is. -/
theorem State.takeTick_pending (s : State) : s.takeTick.pending = s.pending := by
  obtain ⟨-, -, -, -, -, -, -, -, -, -, -, hpending, -⟩ := s.takeClaimsOf_fields ofMarker
  rw [State.takeTick, State.takeMarkerClaims_eq, State.countChoice_settleCodes, State.sampleInputs_eq, State.takeFrameReport_eq]
  exact hpending

/-- A marker's claim is not the path controller's. -/
theorem edgeClaims_claimant {pin : MarkPin} {v : BitVec 3} {edge : Option Bool} {w : WaitingClaim}
    (h : w ∈ edgeClaims pin v edge) : w.claimant ≠ .path := by
  cases edge with
  | none => exact absurd h List.not_mem_nil
  | some rising =>
    rw [edgeClaims_some] at h
    split at h
    · obtain rfl := List.mem_singleton.1 h
      nofun
    · exact absurd h List.not_mem_nil

/-- Nor is the freeze unit's. -/
theorem freezeClaims_claimant {before after : Bool} {w : WaitingClaim} (h : w ∈ freezeClaims before after) :
    w.claimant ≠ .path := by
  unfold freezeClaims at h
  split at h
  · exact absurd h List.not_mem_nil
  · obtain rfl := List.mem_singleton.1 h
    nofun

/-- A tick leaves no claim of the path controller, and no report. -/
theorem State.pathSettled.takeTick (h : s.pathSettled) : s.takeTick.pathSettled ∧ s.takeTick.wires.frameReport = false := by
  obtain ⟨hstate, hclaims⟩ := h
  obtain ⟨hpath, -, -, -, -, -, -, -, -, -, -, -, -, -, hwires⟩ := s.takeClaimsOf_fields ofMarker
  have hcounted : ∀ u : State, u.takeFrameReport.tickCounters.path.state = u.path.state ∧
      u.takeFrameReport.tickCounters.wires = { u.wires with frameReport := false } := by
    intro u
    rw [State.takeFrameReport_eq]
    exact ⟨rfl, rfl⟩
  obtain ⟨hcounted, hreport⟩ := hcounted (s.takeClaimsOf ofMarker)
  rw [State.takeTick, State.takeMarkerClaims_eq]
  generalize (s.takeClaimsOf ofMarker).takeFrameReport.tickCounters = u at hcounted hreport
  rw [State.countChoice_settleCodes, State.sampleInputs_eq]
  refine ⟨⟨fun r a body hs => hstate r a body ?_, fun w hw => ?_⟩, ?_⟩
  · rw [← hpath, ← hcounted]
    exact hs
  · have hcases : w ∈ u.wires.claims ∨ (∃ pin v edge, w ∈ edgeClaims pin v edge) ∨ ∃ before after, w ∈ freezeClaims before after := by
      simp only [List.mem_append] at hw
      obtain (((((h | h) | h) | h) | h) | h) := hw
      · exact .inl h
      · exact .inr (.inl ⟨_, _, _, h⟩)
      · exact .inr (.inl ⟨_, _, _, h⟩)
      · exact .inr (.inl ⟨_, _, _, h⟩)
      · exact .inr (.inl ⟨_, _, _, h⟩)
      · exact .inr (.inr ⟨_, _, h⟩)
    obtain h | ⟨pin, v, edge, h⟩ | ⟨before, after, h⟩ := hcases
    · rw [hreport, hwires] at h
      exact hclaims w (List.mem_of_mem_filter h)
    · exact edgeClaims_claimant h
    · exact freezeClaims_claimant h
  · change u.wires.frameReport = false
    rw [hreport]

end

/-! ### The end of a GET-STATUS (R155) -/

section
variable {s : State} {k : Nat}

/-- A GET-STATUS that is executed has had at least so many CLK periods. -/
def State.readFor (k : Nat) (s : State) : Prop := ∀ r, s.cmd.reading = some r → k ≤ r.periods

/-- A moment at which owners may answer takes none away. -/
theorem State.readFor.ownersAnswer (h : s.readFor k) : s.ownersAnswer.readFor k := by
  cases hr : s.cmd.reading with
  | none => rwa [State.ownersAnswer_none s hr]
  | some r =>
    let of := fun o => s.mayAnswer o && Config.answersNow s.choices o
    have hstart : s.ownersAnswer = ((s.letAnswer of r).withChoices (s.choices + 1)).closeReading := by
      rw [State.ownersAnswer, hr]
    have hreading : ((s.letAnswer of r).withChoices (s.choices + 1)).cmd.reading = some (r.answered of s) := by
      rw [State.letAnswer_eq]
      rfl
    rw [hstart]
    rcases State.closeReading_cases _ _ hreading with ⟨-, hc⟩ | ⟨-, hc⟩
    · rw [hc]
      intro q hq
      obtain rfl := Option.some.inj (hreading.symm.trans hq)
      exact h r hr
    · rw [hc, State.giveReply_eq]
      exact fun _ hq => absurd hq nofun

/-- Nor does what is due or waits before a CLK period. -/
theorem State.readFor.takeDue (h : s.readFor k) : s.takeDue.readFor k := by
  have hp : EventKind.path = .path ∨ EventKind.path = .link ∨ EventKind.path = .clock := .inl rfl
  have hl : EventKind.link = .path ∨ EventKind.link = .link ∨ EventKind.link = .clock := .inr (.inl rfl)
  have hc : EventKind.clock = .path ∨ EventKind.clock = .link ∨ EventKind.clock = .clock := .inr (.inr rfl)
  have hkeeps {u v : State} (hreach : Reach (fun k => k = .path ∨ k = .link ∨ k = .clock) u v) (hu : u.readFor k) :
      v.readFor k := fun r hr => hu r (hreach.reading_kept ▸ hr)
  have htick (u : State) (hu : u.readFor k) : (if u.tbs.tickDue then u.takeTick.ownersAnswer else u).readFor k := by
    split
    · exact (hkeeps (u.takeTick_reach hp hl hc) hu).ownersAnswer
    · exact hu
  have hbyte (u : State) (hu : u.readFor k) : (if u.ltx.byteDue then u.byteTime.ownersAnswer else u).readFor k := by
    split
    · exact (hkeeps (u.byteTime_reach hl) hu).ownersAnswer
    · exact hu
  have hreported := hkeeps (State.takeFrameReport_reach _ hl) (hkeeps (s.takePathClaims_reach hp) h).ownersAnswer
  have hended := (hkeeps (State.finishSendEnd_reach _ hl) (htick _ hreported)).ownersAnswer
  have hrisen := (hkeeps (State.takeUp_reach _ hl) (hbyte _ hended)).ownersAnswer
  exact hkeeps ((State.takeDownBy_reach _ hl _).trans (State.settleCodes_reach _ hc)) hrisen

/-- A CLK period adds one, and with the last it ends. -/
theorem State.readFor.clkPeriod (h : s.readFor k) :
    s.clkPeriod.readFor (k + 1) ∧ (16 ≤ k + 1 → s.clkPeriod.cmd.reading = none) := by
  have hdue : s.takeDue.passed.readFor k := h.takeDue
  change s.takeDue.passed.statusPeriod.readFor (k + 1) ∧ (16 ≤ k + 1 → s.takeDue.passed.statusPeriod.cmd.reading = none)
  generalize s.takeDue.passed = u at hdue
  cases hr : u.cmd.reading with
  | none =>
    rw [State.statusPeriod_none u hr]
    exact ⟨fun r h => absurd (hr.symm.trans h) nofun, fun _ => hr⟩
  | some r =>
    have hk := hdue r hr
    obtain ⟨-, -, -, -, -, -, -, -, -, -, hfinished⟩ := u.finishStatus_fields
    have hperiods : Config.commandPeriods = 16 := rfl
    simp only [State.statusPeriod, hr, hperiods]
    split
    · next hlt =>
      refine ⟨State.readFor.ownersAnswer fun q hq => ?_, fun hfull => absurd hlt (by omega)⟩
      obtain rfl := Option.some.inj hq
      exact Nat.succ_le_succ hk
    · exact ⟨fun q hq => absurd (hfinished.symm.trans hq) nofun, fun _ => hfinished⟩

/-- So it ends with the last of 2 byte times. -/
theorem State.readFor.clkPeriods {n : Nat} (h : s.readFor k) (hn : 0 < n) (hfull : 16 ≤ k + n) :
    (s.clkPeriods n).cmd.reading = none := by
  induction n generalizing s k with
  | zero => exact absurd hn (Nat.lt_irrefl 0)
  | succ n ih =>
    obtain ⟨hnext, hlast⟩ := h.clkPeriod
    rw [State.clkPeriods_succ]
    by_cases h0 : n = 0
    · subst h0
      exact hlast hfull
    · exact ih hnext (Nat.pos_of_ne_zero h0) (by omega)

end

/-- Settles O3. -/
theorem emptyQueuePassesOneClkPeriod : Obligations.EmptyQueuePassesOneClkPeriod := by
  intro s hq period
  have hperiod (u : State) : u.settleCodes.passed = period u := rfl
  refine ⟨fun hr => ?_, fun r hr => ?_, ?_⟩
  · intro claimed
    have hsettled : ¬ claimed → s.pathSettled := fun h =>
      ⟨fun r a body hs => h (.inr ⟨r, a, body, hs⟩), fun w hw hc => h (.inl ⟨w, hw, hc⟩)⟩
    refine ⟨fun hclaimed t ht => ?_, fun hnone hreport => ?_, fun hnone hreport hdue t ht => ?_, fun hnone hreport hdue => ⟨?_, ?_⟩⟩
    · obtain ⟨htaken, hpending, hreading⟩ := exec_appendClaim_takePathClaims hr ht
      refine step_congr hq hr (hpending.trans hq) hreading ?_
      rw [State.takeDueReady, State.takeDueReady, htaken]
    · have hafter : s.takeFrameReport.pathSettled := by
        rw [State.takeFrameReport_eq]
        exact hsettled hnone
      refine step_congr hq hr ?_ ?_ ?_
      · rw [State.takeFrameReport_eq]
        exact hq
      · rw [State.takeFrameReport_eq]
        exact hr
      · rw [State.takeDueReady, State.takeDueReady, (hsettled hnone).takePathClaims, hafter.takePathClaims,
          State.takeFrameReport_twice]
    · have hclaims := hsettled hnone
      have hticked : s.takeTick = t := by
        rw [exec_tick_due hdue] at ht
        have hreading : (s.withPins s.pins).takeTick.cmd.reading = none :=
          (State.takeTick_reach _ (.inl rfl) (.inr (.inl rfl)) (.inr (.inr rfl))).reading_kept.trans hr
        rw [nextOf_none _ hreading] at ht
        exact Host.Outcome.next.inj ht
      obtain ⟨hafter, hreported⟩ := hclaims.takeTick
      rw [hticked] at hafter hreported
      refine step_congr hq hr ?_ ?_ ?_
      · rw [← hticked, State.takeTick_pending]
        exact hq
      · rw [← hticked]
        exact (State.takeTick_reach _ (.inl rfl) (.inr (.inl rfl)) (.inr (.inr rfl))).reading_kept.trans hr
      · have hnotDue : t.tbs.tickDue = false := hticked ▸ s.takeTick_tickDue
        rw [State.takeDueReady, State.takeDueReady, hclaims.takePathClaims, hafter.takePathClaims,
          State.takeFrameReport_none s hreport, State.takeFrameReport_none t hreported]
        rw [hdue, hnotDue, if_pos rfl, if_neg Bool.false_ne_true, hticked]
    · intro hwaits t ht
      have hclaims := hsettled hnone
      have hreading : s.finishSendEnd.cmd.reading = none := (s.finishSendEnd_reach (.inr (.inl rfl))).reading_kept.trans hr
      have hexec : exec .sendEnd s = nextOf s.finishSendEnd := by
        simp only [exec, execSendEnd, Bool.or_eq_true, if_pos hwaits]
      rw [hexec, nextOf_none _ hreading] at ht
      obtain rfl := Host.Outcome.next.inj ht
      obtain ⟨hpath, -, htbs, -, -, -, -, -, -, -, -, hwires, hpending, -⟩ := s.finishSendEnd_fields
      have hafter : s.finishSendEnd.pathSettled := by
        unfold State.pathSettled
        rw [hpath, hwires]
        exact hclaims
      refine step_congr hq hr (hpending.trans hq) hreading ?_
      rw [State.takeDueReady, State.takeDueReady, hclaims.takePathClaims, hafter.takePathClaims,
        State.takeFrameReport_none s hreport, State.takeFrameReport_none s.finishSendEnd (by rw [hwires]; exact hreport), htbs, hdue,
        if_neg Bool.false_ne_true, if_neg Bool.false_ne_true,
        State.finishSendEnd_none s.finishSendEnd (by rw [hwires]) (by rw [hwires])]
    · intro hw hr'
      rw [step_idle hq hr, State.takeDueReady, (hsettled hnone).takePathClaims, State.takeFrameReport_none s hreport]
      rw [hdue, if_neg Bool.false_ne_true, State.finishSendEnd_none s hw hr', hperiod]
  · intro afterClaims afterTick afterSendEnd afterByte v
    have hdue : s.takeDue = afterByte.takeUp.ownersAnswer.takeDown.settleCodes := rfl
    have hv : s.takeDue.passed = v := (congrArg State.passed hdue).trans (hperiod _)
    have hstep : step s = .next s.takeDue.passed.statusPeriod := by
      simp only [step, hq]
      rfl
    rw [hstep, hv, State.statusPeriod]
    clear_value v
    rfl
  · intro n r hr hn hfull
    have hread : s.readFor r.periods := fun q hq => (congrArg StatusReading.periods (Option.some.inj (hr.symm.trans hq))).le
    exact hread.clkPeriods hn hfull

end Sys2Proof.Machine
end
